-- ==== Sys2Proof/Word.lean ====
section
/-! DEFINITION. The byte of the links and the index types of the part (00, "Indices"). -/

namespace Sys2Proof

/-- One byte of a frame (08, Table 8-1). -/
abbrev Byte := BitVec 8

/-- Track T0 to T3 (00, "Indices"). -/
abbrev TrackId := Fin 4

/-- Line L0 to L15 (00, "Indices"). -/
abbrev LineId := Fin 16

/-- Profile P0 to P7 (00, "Indices"). -/
abbrev ProfileId := Fin 8

/-- Template entry 0 to 7 (00, "Indices"). -/
abbrev EntryId := Fin 8

end Sys2Proof
end

