-- ==== Sys2Proof/Syntax.lean ====
section
/-! DEFINITION. The commands the VKT-416 takes: one constructor per row of spec/opcode_table.json, in its order.
A host command carries the link it is sent on, the SEQ of its frame and the payload bytes after the command code.
A row that takes a notice names the block that takes it; the notice itself stands in the state (log 2). -/

namespace Sys2Proof

/-- The two host links (00, Table 0-2). -/
inductive LinkId where
  | link0
  | link1
  deriving DecidableEq, Repr

/-- The kind of a filtered transition on a mark input (R81). -/
inductive MarkEdge where
  | rising
  | falling
  deriving DecidableEq, Repr

/-- The condition a sense return delivers (00, R124). -/
inductive SenseCond where
  | normal
  | noLoad
  | overcurrent
  | stuckOn
  deriving DecidableEq, Repr

/-- The rows of the table of operations and events. -/
inductive Instr where
  /-- POWER_ON. R6: power-on. -/
  | powerOn
  /-- RESETN. R6: a low level on RESETN. -/
  | resetn
  /-- PING. R153: the PING command with frame SEQ `seq` sent on link `l`. -/
  | ping (l : LinkId) (seq : Byte) (args : List Byte)
  /-- IDENTIFY. R153: the IDENTIFY command with frame SEQ `seq` sent on link `l`. -/
  | identify (l : LinkId) (seq : Byte) (args : List Byte)
  /-- SET_LINK. R151: the SET_LINK command with frame SEQ `seq` sent on link `l`. -/
  | setLink (l : LinkId) (seq : Byte) (args : List Byte)
  /-- QUERY_LINK. R154: the QUERY_LINK command with frame SEQ `seq` sent on link `l`. -/
  | queryLink (l : LinkId) (seq : Byte) (args : List Byte)
  /-- ACK_REPORTS. R178: the ACK_REPORTS command with frame SEQ `seq` sent on link `l`. -/
  | ackReports (l : LinkId) (seq : Byte) (args : List Byte)
  /-- SET_ROUTE. R155: the SET_ROUTE command with frame SEQ `seq` sent on link `l`. -/
  | setRoute (l : LinkId) (seq : Byte) (args : List Byte)
  /-- RESET. R156: the RESET command with frame SEQ `seq` sent on link `l`. -/
  | reset (l : LinkId) (seq : Byte) (args : List Byte)
  /-- CLAIM. R158: the CLAIM command with frame SEQ `seq` sent on link `l`. -/
  | claim (l : LinkId) (seq : Byte) (args : List Byte)
  /-- RELEASE. R159: the RELEASE command with frame SEQ `seq` sent on link `l`. -/
  | release (l : LinkId) (seq : Byte) (args : List Byte)
  /-- QUERY_CLAIMS. R160: the QUERY_CLAIMS command with frame SEQ `seq` sent on link `l`. -/
  | queryClaims (l : LinkId) (seq : Byte) (args : List Byte)
  /-- SET_TRACK. R4: the SET_TRACK command with frame SEQ `seq` sent on link `l`. -/
  | setTrack (l : LinkId) (seq : Byte) (args : List Byte)
  /-- ENABLE_TRACK. R7: the ENABLE_TRACK command with frame SEQ `seq` sent on link `l`. -/
  | enableTrack (l : LinkId) (seq : Byte) (args : List Byte)
  /-- DISABLE_TRACK. R14: the DISABLE_TRACK command with frame SEQ `seq` sent on link `l`. -/
  | disableTrack (l : LinkId) (seq : Byte) (args : List Byte)
  /-- PRESET. R15: the PRESET command with frame SEQ `seq` sent on link `l`. -/
  | preset (l : LinkId) (seq : Byte) (args : List Byte)
  /-- HOME. R16: the HOME command with frame SEQ `seq` sent on link `l`. -/
  | home (l : LinkId) (seq : Byte) (args : List Byte)
  /-- REBASE. R18: the REBASE command with frame SEQ `seq` sent on link `l`. -/
  | rebase (l : LinkId) (seq : Byte) (args : List Byte)
  /-- QUERY_TRACK. R21: the QUERY_TRACK command with frame SEQ `seq` sent on link `l`. -/
  | queryTrack (l : LinkId) (seq : Byte) (args : List Byte)
  /-- CLEAR_TRACK_FAULT. R13: the CLEAR_TRACK_FAULT command with frame SEQ `seq` sent on link `l`. -/
  | clearTrackFault (l : LinkId) (seq : Byte) (args : List Byte)
  /-- SET_SIM. R35: the SET_SIM command with frame SEQ `seq` sent on link `l`. -/
  | setSim (l : LinkId) (seq : Byte) (args : List Byte)
  /-- CLEAR_STATS. R22: the CLEAR_STATS command with frame SEQ `seq` sent on link `l`. -/
  | clearStats (l : LinkId) (seq : Byte) (args : List Byte)
  /-- ADD_CUE. R50: the ADD_CUE command with frame SEQ `seq` sent on link `l`. -/
  | addCue (l : LinkId) (seq : Byte) (args : List Byte)
  /-- CANCEL_CUE. R55: the CANCEL_CUE command with frame SEQ `seq` sent on link `l`. -/
  | cancelCue (l : LinkId) (seq : Byte) (args : List Byte)
  /-- FLUSH. R56: the FLUSH command with frame SEQ `seq` sent on link `l`. -/
  | flush (l : LinkId) (seq : Byte) (args : List Byte)
  /-- QUERY_CUE. R59: the QUERY_CUE command with frame SEQ `seq` sent on link `l`. -/
  | queryCue (l : LinkId) (seq : Byte) (args : List Byte)
  /-- QUERY_SCHEDULE. R60: the QUERY_SCHEDULE command with frame SEQ `seq` sent on link `l`. -/
  | querySchedule (l : LinkId) (seq : Byte) (args : List Byte)
  /-- QUERY_POOL. R61: the QUERY_POOL command with frame SEQ `seq` sent on link `l`. -/
  | queryPool (l : LinkId) (seq : Byte) (args : List Byte)
  /-- SET_MARK. R96: the SET_MARK command with frame SEQ `seq` sent on link `l`. -/
  | setMark (l : LinkId) (seq : Byte) (args : List Byte)
  /-- ARM_MARKS. R82: the ARM_MARKS command with frame SEQ `seq` sent on link `l`. -/
  | armMarks (l : LinkId) (seq : Byte) (args : List Byte)
  /-- DISARM_MARKS. R82: the DISARM_MARKS command with frame SEQ `seq` sent on link `l`. -/
  | disarmMarks (l : LinkId) (seq : Byte) (args : List Byte)
  /-- SET_TEMPLATE. R94: the SET_TEMPLATE command with frame SEQ `seq` sent on link `l`. -/
  | setTemplate (l : LinkId) (seq : Byte) (args : List Byte)
  /-- QUERY_MARKS. R97: the QUERY_MARKS command with frame SEQ `seq` sent on link `l`. -/
  | queryMarks (l : LinkId) (seq : Byte) (args : List Byte)
  /-- SET_LINE. R101: the SET_LINE command with frame SEQ `seq` sent on link `l`. -/
  | setLine (l : LinkId) (seq : Byte) (args : List Byte)
  /-- SET_PROFILE. R103: the SET_PROFILE command with frame SEQ `seq` sent on link `l`. -/
  | setProfile (l : LinkId) (seq : Byte) (args : List Byte)
  /-- FORCE_LINE. R112: the FORCE_LINE command with frame SEQ `seq` sent on link `l`. -/
  | forceLine (l : LinkId) (seq : Byte) (args : List Byte)
  /-- QUERY_LINE. R121: the QUERY_LINE command with frame SEQ `seq` sent on link `l`. -/
  | queryLine (l : LinkId) (seq : Byte) (args : List Byte)
  /-- CLEAR_LINE_FAULT. R131: the CLEAR_LINE_FAULT command with frame SEQ `seq` sent on link `l`. -/
  | clearLineFault (l : LinkId) (seq : Byte) (args : List Byte)
  /-- SET_SUPERVISION. R132: the SET_SUPERVISION command with frame SEQ `seq` sent on link `l`. -/
  | setSupervision (l : LinkId) (seq : Byte) (args : List Byte)
  /-- START_SWEEP. R133: the START_SWEEP command with frame SEQ `seq` sent on link `l`. -/
  | startSweep (l : LinkId) (seq : Byte) (args : List Byte)
  /-- QUERY_SWEEP. R138: the QUERY_SWEEP command with frame SEQ `seq` sent on link `l`. -/
  | querySweep (l : LinkId) (seq : Byte) (args : List Byte)
  /-- UNKNOWN_COMMAND. R186: a command frame whose code Table 11-3 does not list. -/
  | unknownCommand (l : LinkId) (seq code : Byte) (args : List Byte)
  /-- DUPLICATE. R147: a frame that becomes current with the last SEQ of its link. -/
  | duplicate (l : LinkId) (seq : Byte) (payload : List Byte)
  /-- COMPLETE_FRAME. R144: the complete frame in the receiver of `l` is judged. -/
  | completeFrame (l : LinkId)
  /-- GAP_TRUNCATION. R145: more than 2 ms without a byte inside a LINK0 frame. -/
  | gapTruncation
  /-- CS1N_RISE. R145: CS1N rises. -/
  | cs1nRise
  /-- BAD_LEN_DISCARD. R143: the frame in the receiver of `l` has a LEN outside 1 to 200. -/
  | badLenDiscard (l : LinkId)
  /-- REPLY_SENT. R146: the last byte of the reply on `l` has been sent. -/
  | replySent (l : LinkId)
  /-- SENT_NOTICE. R176: the last byte of the report frame on `l` has been sent. -/
  | sentNotice (l : LinkId)
  /-- PENDING_BAUD_RATE_APPLIED. R152: LINK0 takes its pending baud rate. -/
  | pendingBaudRateApplied
  /-- LINK_LOSS. R165: the supervision timer of `l` expires. -/
  | linkLoss (l : LinkId)
  /-- FLUSH_LOSS_POLICY. R166: the CSU takes its oldest FLUSH loss policy notice. -/
  | flushLossPolicy
  /-- MARK_UNIT_OFF_NOTICE. R93: MUk takes the notice of a track FLUSH loss policy. -/
  | markUnitOffNotice (k : TrackId)
  /-- LINE_LOSS_POLICY. R120: LUn takes the notice of a line FLUSH loss policy. -/
  | lineLossPolicy (n : LineId)
  /-- REPORT_RECORD. R174: the queue of `l` takes the oldest record routed to it. -/
  | reportRecord (l : LinkId)
  /-- RESEND_EXPIRY. R177: the resend timer of `l` expires. -/
  | resendExpiry (l : LinkId)
  /-- PHASE_CHANGE. R25: the phase pair of track k is observed as A, B (true is high). -/
  | phaseChange (k : TrackId) (a b : Bool)
  /-- INDEX_EDGE. R28: a rising edge on TZk. -/
  | indexEdge (k : TrackId)
  /-- SAMPLE_TIMER_EXPIRY. R29: the sample timer of track k expires. -/
  | sampleTimerExpiry (k : TrackId)
  /-- TRANSFER_COMPLETION. R30: the transfer of track k completes with these bits; the W data bits are the low W bits of `raw`. -/
  | transferCompletion (k : TrackId) (start : Bool) (raw : BitVec 32) (parity stop : Bool)
  /-- UPDATE_INTERVAL_EXPIRY. R34: the 10 us update interval of track k expires. -/
  | updateIntervalExpiry (k : TrackId)
  /-- SETTLE_EXPIRY. R8: the settle timer of track k expires. -/
  | settleExpiry (k : TrackId)
  /-- WINDOW_END. R19: the velocity window of track k ends. -/
  | windowEnd (k : TrackId)
  /-- EVALUATION_EVENT. R62: the CSU takes the next position change offered by track k. -/
  | evaluationEvent (k : TrackId)
  /-- FIRING_REQUEST. R69: line n takes the outstanding firing request. -/
  | firingRequest (n : LineId)
  /-- DISCONTINUITY_NOTICE. R72: the CSU takes the discontinuity notice of track k. -/
  | discontinuityNotice (k : TrackId)
  /-- RESUME_NOTICE. R73: the CSU takes the resume notice of track k. -/
  | resumeNotice (k : TrackId)
  /-- FREEZE_NOTICE. R47: the CSU takes the freeze notice of track k. -/
  | freezeNotice (k : TrackId)
  /-- SPAWN_REQUEST. R53: the CSU takes the next spawn request of MUk. -/
  | spawnRequest (k : TrackId)
  /-- MARK_EDGE. R83: a filtered transition on MKk. -/
  | markEdge (k : TrackId) (edge : MarkEdge)
  /-- MARK_POSITION_CHANGE. R91: MUk takes the next position change offered to it. -/
  | markPositionChange (k : TrackId)
  /-- MARK_FAULT_NOTICE. R92: MUk takes a fault entry notice. -/
  | markFaultNotice (k : TrackId)
  /-- MARK_DISCONTINUITY_NOTICE. R92: MUk takes a discontinuity notice. -/
  | markDiscontinuityNotice (k : TrackId)
  /-- DISTANCE_PULSE_END. R108: line n takes the next position change offered to it. -/
  | distancePulseEnd (n : LineId)
  /-- TRACK_NOTICE_AT_LINE. R110: line n takes a notice of its track unit. -/
  | trackNoticeAtLine (n : LineId)
  /-- TIME_PULSE_END. R108: the end time of the TIME pulse of line n is reached. -/
  | timePulseEnd (n : LineId)
  /-- MAX_ON_EXPIRY. R109: the max-on timer of line n expires. -/
  | maxOnExpiry (n : LineId)
  /-- HOLDOFF_EXPIRY. R111: the holdoff timer of line n expires. -/
  | holdoffExpiry (n : LineId)
  /-- INHIBIT_ASSERTION. R118: INH rises. -/
  | inhibitAssertion
  /-- INHIBIT_RELEASE. R119: INH falls. -/
  | inhibitRelease
  /-- ABORT_BY_INHIBIT. R136: the LSV takes an inhibit assertion. -/
  | abortByInhibit
  /-- SENSE_EVENT. R124: the condition on SNn becomes `c`. -/
  | senseEvent (n : LineId) (c : SenseCond)
  /-- FORCING. R115: line n takes the forcing of the LSV. -/
  | forcing (n : LineId)
  /-- DRIVE_VIEW_NOTICE. R124: the LSV takes a pulse begin, pulse end or probe start notice of line n. -/
  | driveViewNotice (n : LineId)
  /-- BLANKING_EXPIRY. R125: the blanking timer of line n expires. -/
  | blankingExpiry (n : LineId)
  /-- PERIOD_TIMER_EXPIRY. R133: the sweep period timer expires. -/
  | periodTimerExpiry
  /-- PROBE_START. R116: line n takes the probe start of the LSV. -/
  | probeStart (n : LineId)
  /-- PROBE_TIMER_EXPIRY. R135: the probe timer expires. -/
  | probeTimerExpiry
  /-- ABANDONMENT. R136: the LSV takes line n's notice of an abandoned probe. -/
  | abandonment (n : LineId)
  /-- RECEIVED_BYTE. R143: the receiver of `l` takes a byte; on LINK1 a byte is shifted out with it. -/
  | receivedByte (l : LinkId) (b : Byte)
  /-- CS1N_FALL. R142: CS1N falls. -/
  | cs1nFall
  deriving DecidableEq, Repr

end Sys2Proof
end

