-- ==== Sys2Proof/Decode.lean ====
section
/-! DEFINITION. The commands that a word of table bits spells. The table of this block gives no row any bits
(no "fixed" and no "fields" in spec/opcode_table.json), so no word spells a command (log 24). The bytes of the host's
frames are read by Machine/Operands.lean, under the field encodings of 11. -/

namespace Sys2Proof

/-- The command spelled by the low `nbits` bits of `w`: none, for any word (log 24). -/
def decodeTableWord (_nbits _w : Nat) : Option Instr := none

end Sys2Proof
end

