-- ==== Sys2Proof/Config.lean ====
section
/-! DEFINITION. The sizes the spec fixes for the VKT-416, and its free values. -/

namespace Sys2Proof.Config

/-- Highest position, 2^47 - 1 (00, "Positions and distances"). -/
def maxPos : Int := 140737488355327

/-- Lowest position, -2^47 (00, "Positions and distances"). -/
def minPos : Int := -140737488355328

/-- Records of the cue pool (R41). -/
def poolSize : Nat := 512

/-- The admission stamp at which the CSU renumbers (R42). -/
def lastStamp : Nat := 4294967295

/-- Records a report queue holds at most (R173). -/
def queueSize : Nat := 64

/-- Records sent and unacknowledged at most (R173, R175). -/
def windowSize : Nat := 8

/-- Complete frames an inbound buffer holds at most (R144). -/
def inboundSize : Nat := 2

/-- Highest number of payload bytes of a frame, the largest LEN (R143). -/
def maxPayload : Nat := 200

/-- Probe time in us (R135). -/
def probeTime : Nat := 20

/-- Update interval of the simulation source in us (R34). -/
def updateInterval : Nat := 10

/-- FREE VALUE (log 8): whether a remaining time that is no whole number of ms is carried rounded
up. R121 gives the max-on time left in ms and does not say how it is rounded. -/
opaque roundMsUp : Bool

/-- FREE VALUE (log 29): the result of a probe that a forcing for STUCK ends, as one of PASS, OPEN, OVERLOAD and SKIPPED_BUSY.
R115 gives that result to the LSV and R135 states none. It may depend on the line, on the time in us and on the number of such
probes before. -/
opaque forcedProbe (line now count : Nat) : Fin 4

end Sys2Proof.Config
end

