-- ==== Sys2Proof/Machine/State.lean ====
section
/-! DEFINITION. Everything the VKT-416 holds, as plain data, and its value after reset. INVENTORY.md lists each item with
the rule that names it. Notices one block has handed to another and the other has not yet taken stand in `Transit` (log 2). -/

namespace Sys2Proof.Machine

/-! ### Track unit (01, 02) -/

/-- What produces the position changes of a track (Table 1-2). -/
inductive Source where
  | absent
  | quad
  | sampled
  | sim
  deriving DecidableEq, Repr

/-- Travel direction of a track (R2). -/
inductive Travel where
  | forward
  | reverse
  deriving DecidableEq, Repr

/-- Count sense of a track (R2). -/
inductive CountSense where
  | normal
  | inverted
  deriving DecidableEq, Repr

/-- The four track states (Table 1-1). -/
inductive TrackState where
  | disabled
  | settling
  | running
  | fault
  deriving DecidableEq, Repr

/-- Track causes: the fault causes of Table 1-3, and SETTLED and DISCONTINUITY, which appear only in
TRACK_STATE reports (R170, R189). -/
inductive TrackCause where
  | absent
  | sample
  | quad
  | range
  | overspeed
  | settled
  | discontinuity
  deriving DecidableEq, Repr

/-- Which range limit a clamp reached (R10). -/
inductive RangeLimit where
  | low
  | high
  deriving DecidableEq, Repr

/-- The configuration fields of a track (Table 1-2). -/
structure TrackConfig where
  source : Source
  travel : Travel
  sense : CountSense
  settleTime : Nat
  window : Nat
  overspeed : Nat
  errorLimit : Nat
  jumpLimit : Nat
  sampleWidth : Nat
  samplePeriod : Nat
  scheduleLimit : Nat
  deriving DecidableEq, Repr

/-- The reset values of Table 1-2. -/
def TrackConfig.reset : TrackConfig where
  source := .absent
  travel := .forward
  sense := .normal
  settleTime := 20
  window := 10
  overspeed := 0
  errorLimit := 3
  jumpLimit := 256
  sampleWidth := 24
  samplePeriod := 250
  scheduleLimit := 128

/-- The statistics of a track (R21). -/
structure TrackStats where
  noStart : Nat
  badStop : Nat
  parity : Nat
  jump : Nat
  illegal : Nat
  ignoredMarks : Nat
  deriving DecidableEq, Repr

/-- The statistics after reset and after CLEAR_STATS (R6, R22). -/
def TrackStats.zero : TrackStats := ⟨0, 0, 0, 0, 0, 0⟩

/-- A running velocity window: its start position and its length in ms (R19). -/
structure Window where
  start : Int
  length : Nat
  deriving DecidableEq, Repr

/-- The pair of levels on TAk and TBk; true is high (R25). -/
structure PhasePair where
  a : Bool
  b : Bool
  deriving DecidableEq, Repr

/-- Track unit TUk with its position source (R6, R38). A timer holds the moment of its expiry in
model time (log 6), none when it is stopped. -/
structure Track where
  cfg : TrackConfig
  state : TrackState
  cause : TrackCause
  clamp : Option RangeLimit
  pos : Int
  vel : Int
  settleTimer : Option Nat
  window : Option Window
  rejects : Nat
  windowIllegal : Nat
  lastIllegal : Nat
  homeArmed : Bool
  homeValue : Int
  simVel : Int
  stats : TrackStats
  reference : Option PhasePair
  sampleTimer : Option Nat
  transfer : Bool
  rPrev : Option Nat
  framingValid : Bool
  updateTimer : Option Nat
  remainder : Int
  deriving DecidableEq, Repr

/-- A track unit after reset (R6, R38). -/
def Track.reset : Track where
  cfg := .reset
  state := .disabled
  cause := .absent
  clamp := none
  pos := 0
  vel := 0
  settleTimer := none
  window := none
  rejects := 0
  windowIllegal := 0
  lastIllegal := 0
  homeArmed := false
  homeValue := 0
  simVel := 0
  stats := .zero
  reference := none
  sampleTimer := none
  transfer := false
  rPrev := none
  framingValid := true
  updateTimer := none
  remainder := 0

/-! ### Cue Schedule Unit (03, 04) -/

/-- Notify level of a cue (R39). -/
inductive Notify where
  | silent
  | onFail
  | always
  deriving DecidableEq, Repr

/-- Origin and key of a cue: a HOST cue id, or the template index and mark sequence of a MARK cue (R39). -/
inductive CueKey where
  | host (id : BitVec 16)
  | mark (entry : EntryId) (seq : BitVec 16)
  deriving DecidableEq, Repr

/-- Pitch and remaining count of a repeating cue (R39). -/
structure CueRepeat where
  pitch : Nat
  remaining : Nat
  deriving DecidableEq, Repr

/-- A pending cue record (Table 3-2). Its track is the schedule it stands in. -/
structure Cue where
  key : CueKey
  line : LineId
  nominal : Int
  effective : Int
  profile : Option ProfileId
  width : Option Nat
  tolerance : Option Nat
  repetition : Option CueRepeat
  index : Nat
  notify : Notify
  stamp : Nat
  deriving DecidableEq, Repr

/-- Outcomes of a cue (Table 11-5). -/
inductive CueResult where
  | fired
  | late
  | missed
  | passed
  | slow
  | collided
  | lineOff
  | lineFault
  | inhibited
  deriving DecidableEq, Repr

/-- Evaluation mode of a schedule (R47). -/
inductive EvalMode where
  | evaluating
  | frozen
  deriving DecidableEq, Repr

/-- What a firing request names beside the evaluation event it belongs to (R68). -/
structure FiringRequest where
  line : LineId
  profile : ProfileId
  fromOverride : Bool
  width : Option Nat
  deriving DecidableEq, Repr

/-- What the track unit hands over with a position change (R62). -/
structure EvalInput where
  pos : Int
  travel : Travel
  state : TrackState
  vel : Int
  deriving DecidableEq, Repr

/-- An evaluation event in progress: its track, its input and the firing request whose answer the CSU
waits for (R62, R68). -/
structure Evaluation where
  track : TrackId
  input : EvalInput
  request : FiringRequest
  deriving DecidableEq, Repr

/-- The Cue Schedule Unit (Table 3-1). The free list, the cue counts and the pending counts are read off
the schedules (log 11). `taken` is the position of each track as the CSU last took it (R50). -/
structure Csu where
  schedules : Vector (List Cue) 4
  modes : Vector EvalMode 4
  taken : Vector Int 4
  stamp : Nat
  evaluation : Option Evaluation
  deriving DecidableEq, Repr

/-- The CSU after reset (R48). -/
def Csu.reset : Csu where
  schedules := Vector.replicate 4 []
  modes := Vector.replicate 4 .evaluating
  taken := Vector.replicate 4 0
  stamp := 0
  evaluation := none

/-! ### Mark unit (05) -/

/-- Mark unit states (Table 5-1). -/
inductive MarkState where
  | off
  | armed
  | blanked
  | lost
  deriving DecidableEq, Repr

/-- Why a mark unit last entered LOST (R80). -/
inductive LossCause where
  | absent
  | missing
  | trackFault
  | discontinuity
  deriving DecidableEq, Repr

/-- The six settings of SET_MARK (R96). -/
structure MarkConfig where
  edge : MarkEdge
  blank : Nat
  pitch : Nat
  tolerance : Nat
  limit : Nat
  reports : Bool
  deriving DecidableEq, Repr

/-- One template entry of a mark program (R94). -/
structure Template where
  enabled : Bool
  offset : Nat
  line : LineId
  profile : Option ProfileId
  width : Option Nat
  tolerance : Option Nat
  notify : Notify
  deriving DecidableEq, Repr

/-- A template entry after reset (R94). -/
def Template.reset : Template := ⟨false, 0, 0, none, none, none, .silent⟩

/-- Mark unit MUk (R80). -/
structure Mark where
  state : MarkState
  last : Int
  valid : Bool
  seq : BitVec 16
  substitutions : Nat
  loss : LossCause
  cfg : MarkConfig
  program : Vector Template 8
  deriving DecidableEq, Repr

/-- A mark unit after reset (R80, R94). -/
def Mark.reset : Mark where
  state := .off
  last := 0
  valid := false
  seq := 0
  substitutions := 0
  loss := .absent
  cfg := ⟨.rising, 0, 0, 0, 2, false⟩
  program := Vector.replicate 8 .reset

/-! ### Line unit and Profile Table (06) -/

/-- Line states (Table 6-1). -/
inductive LineState where
  | disabled
  | off
  | on
  | holdoff
  | test
  | fault
  deriving DecidableEq, Repr

/-- Collision policy of a line (R100). -/
inductive Policy where
  | reject
  | retrigger
  deriving DecidableEq, Repr

/-- Polarity of an output pin (R100). -/
inductive Polarity where
  | activeHigh
  | activeLow
  deriving DecidableEq, Repr

/-- Mode of a pulse profile (R103). -/
inductive PulseMode where
  | time
  | distance
  deriving DecidableEq, Repr

/-- What began a pulse (Table 6-2). -/
inductive PulseOrigin where
  | cue
  | forced
  deriving DecidableEq, Repr

/-- The end condition of an active pulse, and with it its mode (Table 6-2): an end time in model time, or
an end position with the travel sign of the line's track and the max-on timer. -/
inductive PulseEnd where
  | time (at_ : Nat)
  | distance (pos : Int) (travel : Travel) (maxOn : Option Nat)
  deriving DecidableEq, Repr

/-- The active pulse record (Table 6-2). -/
structure Pulse where
  origin : PulseOrigin
  finish : PulseEnd
  profile : ProfileId
  fromOverride : Bool
  holdoff : Nat
  deriving DecidableEq, Repr

/-- The six configuration fields of a line (R100). -/
structure LineConfig where
  enabled : Bool
  track : TrackId
  profile : ProfileId
  offset : Int
  policy : Policy
  polarity : Polarity
  deriving DecidableEq, Repr

/-- Line unit LUn (R100). -/
structure Line where
  cfg : LineConfig
  state : LineState
  pulse : Option Pulse
  holdoffTimer : Option Nat
  deriving DecidableEq, Repr

/-- A line unit after reset (R100). -/
def Line.reset : Line where
  cfg := ⟨false, 0, 0, 0, .reject, .activeHigh⟩
  state := .disabled
  pulse := none
  holdoffTimer := none

/-- One entry of the Profile Table (R103). -/
structure Profile where
  mode : PulseMode
  width : Nat
  holdoff : Nat
  minSpeed : Nat
  maxOn : Nat
  deriving DecidableEq, Repr

/-- A profile after reset (R103). -/
def Profile.reset : Profile := ⟨.time, 1000, 0, 0, 0⟩

/-! ### Load Supervisor (07) -/

/-- The three load fault kinds (07). -/
inductive FaultKind where
  | openLoad
  | overload
  | stuck
  deriving DecidableEq, Repr

/-- A set of fault kinds: a latched fault set, or the masked kinds of a line (Table 7-1). -/
structure FaultSet where
  openLoad : Bool
  overload : Bool
  stuck : Bool
  deriving DecidableEq, Repr

/-- The empty set of fault kinds. -/
def FaultSet.empty : FaultSet := ⟨false, false, false⟩

/-- What a line is doing, as it has last told the LSV (Table 7-1). -/
inductive DriveView where
  | inactive
  | active
  | probe
  deriving DecidableEq, Repr

/-- The blanking timer of a line: stopped, running to a moment, or expired for the present pulse (Table 7-1). -/
inductive Blanking where
  | stopped
  | running (until_ : Nat)
  | expired
  deriving DecidableEq, Repr

/-- The per-line items of the LSV (R123). -/
structure Load where
  masked : FaultSet
  blankTime : Nat
  latched : FaultSet
  sense : SenseCond
  view : DriveView
  blanking : Blanking
  deriving DecidableEq, Repr

/-- The per-line items after reset, for the condition SNn presents when observation begins (R123). -/
def Load.reset (sense : SenseCond) : Load where
  masked := .empty
  blankTime := 100
  latched := .empty
  sense := sense
  view := .inactive
  blanking := .stopped

/-- Sweep results (Table 7-2). -/
inductive SweepResult where
  | notRun
  | notEnabled
  | skippedMasked
  | skippedBusy
  | pass
  | openLoad
  | overload
  deriving DecidableEq, Repr

/-- Who started a sweep (R133). -/
inductive Starter where
  | absent
  | link (l : LinkId)
  | periodic
  deriving DecidableEq, Repr

/-- The sweep record (R133). `request` is the probe start sent to a line that has not yet taken it (R134). `forced` is the model's
own: the number of probes that a forcing has ended, from which each takes a fresh free value (log 29). -/
structure Sweep where
  running : Bool
  current : Option LineId
  starter : Starter
  results : Vector SweepResult 16
  aborted : Bool
  period : Nat
  periodTimer : Option Nat
  probeTimer : Option Nat
  request : Option LineId
  forced : Nat
  deriving DecidableEq, Repr

/-- The sweep record after reset (R133). -/
def Sweep.reset : Sweep where
  running := false
  current := none
  starter := .absent
  results := Vector.replicate 16 .notRun
  aborted := false
  period := 0
  periodTimer := none
  probeTimer := none
  request := none
  forced := 0

/-! ### Link interface (08, 09) -/

/-- One item for each link. -/
structure PerLink (α : Type) where
  on0 : α
  on1 : α
  deriving DecidableEq, Repr

/-- Link states (Table 9-1). -/
inductive LinkState where
  | idle
  | up
  | lost
  deriving DecidableEq, Repr

/-- A complete command frame (Table 8-1). `resumes` marks the frame whose valid-frame notice brought its link
back from LOST: LINK_RESUMED is offered once its reply has been sent (R181, log 16). -/
structure Frame where
  seq : Byte
  payload : List Byte
  resumes : Bool
  deriving DecidableEq, Repr

/-- The current command of a link (R140): not yet executed, or executed with its reply waiting or being sent.
`orphan` marks a command that was current and not executed when its link was lost: its reply is dropped (R150). -/
structure Current where
  frame : Frame
  executed : Bool
  orphan : Bool
  deriving DecidableEq, Repr

/-- What an outbound frame carries: the reply of the current command, or a report record by its SEQ. -/
inductive OutboundKind where
  | reply
  | report (seq : Byte)
  deriving DecidableEq, Repr

/-- A frame being sent, with the number of bytes sent (R140, R148). On LINK0 it is chosen as soon as it can begin, on LINK1 with
its first byte; `sent` is 0 again when CS1N interrupts it (R149, log 14). -/
structure Outbound where
  kind : OutboundKind
  bytes : List Byte
  sent : Nat
  deriving DecidableEq, Repr

/-- The four LINK0 baud rates (R140). -/
inductive BaudRate where
  | b115200
  | b230400
  | b460800
  | b921600
  deriving DecidableEq, Repr

/-- Link interface LIl (R140). `receiver` holds the bytes of the frame taken so far, none while HUNTING; `replyPending` says that
the stored reply waits to be sent; `holdReports` that reports wait for the reply of the frame that resumed the link (R181);
`resetWait` that the current command is an accepted RESET (R156); `syncOut`, used on LINK1 alone, that SDO1 presents the first bit
of the SYNC of a frame not yet begun (R142, log 14). -/
structure Link where
  state : LinkState
  receiver : List Byte
  inbound : List Frame
  current : Option Current
  lastSeq : Option Byte
  storedReply : Option (List Byte)
  replyPending : Bool
  outbound : Option Outbound
  badFrames : Nat
  truncated : Nat
  discarded : Nat
  duplicates : Nat
  timeout : Nat
  resend : Nat
  supervision : Option Nat
  holdReports : Bool
  resetWait : Bool
  syncOut : Bool
  deriving DecidableEq, Repr

/-- A link interface after reset (R140, R163). -/
def Link.reset : Link where
  state := .idle
  receiver := []
  inbound := []
  current := none
  lastSeq := none
  storedReply := none
  replyPending := false
  outbound := none
  badFrames := 0
  truncated := 0
  discarded := 0
  duplicates := 0
  timeout := 0
  resend := 100
  supervision := none
  holdReports := false
  resetWait := false
  syncOut := false

/-- The baud rate of LINK0, its pending rate, and the link whose SET_LINK reply the pending rate waits for (R152). -/
structure Baud where
  rate : BaudRate
  pending : Option BaudRate
  awaiting : Option LinkId
  deriving DecidableEq, Repr

/-- Loss policy of a claim (R157). -/
inductive LossPolicy where
  | keep
  | flush
  deriving DecidableEq, Repr

/-- One entry of the Claim Table (R157). -/
structure Claim where
  owner : Option LinkId
  policy : LossPolicy
  deriving DecidableEq, Repr

/-- An entry after reset and after every release (R157). -/
def Claim.free : Claim := ⟨none, .keep⟩

/-! ### Reports (10, 11) -/

/-- Status codes of a reply (Table 11-4). -/
inductive Status where
  | ok
  | unknownCommand
  | badLength
  | badValue
  | notOwner
  | heldByOther
  | trackDisabled
  | trackEnabled
  | wrongTrack
  | idInUse
  | notFound
  | behind
  | poolFull
  | trackFull
  | busy
  | stillPresent
  | lineInUse
  | wrongSource
  | lineOff
  | lineFault
  | inhibited
  | outOfRange
  deriving DecidableEq, Repr

/-- Cause of a reset (R170). -/
inductive ResetCause where
  | power
  | pin
  | command
  deriving DecidableEq, Repr

/-- Reason of a PULSE_TRUNCATED report (R170). -/
inductive Truncation where
  | maxOn
  | track
  | discontinuity
  | inhibit
  | disabled
  | linkLost
  deriving DecidableEq, Repr

/-- Fields of a CUE_OUTCOME report (R74). -/
structure OutcomeReport where
  track : TrackId
  key : CueKey
  result : CueResult
  line : LineId
  overshoot : Nat
  index : Nat
  remaining : Nat
  pos : Int
  rangeEnd : Bool
  deriving DecidableEq, Repr

/-- Fields of a MARK report (R86). -/
structure MarkReport where
  track : TrackId
  seq : BitVec 16
  pos : Int
  vel : Int
  pitch : Option Int
  substituted : Bool
  afterLoss : Bool
  deriving DecidableEq, Repr

/-- The report kinds with their fields (Table 10-2). -/
inductive Report where
  | reset (cause : ResetCause)
  | linkResumed
  | linkLost (l : LinkId)
  | overflow (dropped : Nat)
  | cueOutcome (o : OutcomeReport)
  | scheduleFlushed (k : TrackId) (line : Option LineId) (count : Nat)
  | trackState (k : TrackId) (state : TrackState) (cause : TrackCause)
  | homed (k : TrackId) (pos : Int)
  | mark (m : MarkReport)
  | markRejected (k : TrackId) (pos pitch : Int)
  | markLost (k : TrackId) (cause : LossCause)
  | spawnFailed (k : TrackId) (entry : EntryId) (seq : BitVec 16) (reason : Status)
  | pulseTruncated (n : LineId) (reason : Truncation)
  | lineFault (n : LineId) (kind : FaultKind)
  | sweepDone (pass openLoad overload skipped : Nat) (aborted : Bool)
  | inhibit (asserted : Bool)
  deriving DecidableEq, Repr

/-- Standing of a record in its queue (R173); `due` is the resend-due mark of an IN_FLIGHT record. -/
inductive Standing where
  | waiting
  | sending
  | inFlight (due : Bool)
  deriving DecidableEq, Repr

/-- A record of a report queue (R173). -/
structure Record where
  report : Report
  seq : Byte
  standing : Standing
  deriving DecidableEq, Repr

/-- Report queue RQl (R173). -/
structure Queue where
  records : List Record
  nextSeq : Byte
  resendTimer : Option Nat
  dropped : Nat
  accepting : Bool
  deriving DecidableEq, Repr

/-- A report queue after a reset with the given cause (R173). -/
def Queue.reset (cause : ResetCause) : Queue where
  records := [⟨.reset cause, 0, .waiting⟩]
  nextSeq := 1
  resendTimer := none
  dropped := 0
  accepting := true

/-! ### Notices on their way from one block to another (log 2) -/

/-- Notices of a track unit to the CSU (Table 1-4). -/
inductive CsuNotice where
  | change (e : EvalInput)
  | freeze
  | resume (pos : Int)
  | discontinuity (pos : Int)
  deriving DecidableEq, Repr

/-- Notices of a track unit to its mark unit (Table 1-4). -/
inductive MarkNotice where
  | change (pos : Int)
  | fault
  | discontinuity
  deriving DecidableEq, Repr

/-- Notices of track unit `k` to a line (Table 1-4): a position change, or the end of a DISTANCE pulse. -/
inductive LineNotice where
  | change (k : TrackId) (pos : Int)
  | truncate (k : TrackId) (reason : Truncation)
  deriving DecidableEq, Repr

/-- What took a line out of TEST before the end of its probe (R136). -/
inductive Abandon where
  | pulse
  | disabling
  | inhibit
  deriving DecidableEq, Repr

/-- Notices of a line unit to the LSV (R124). -/
inductive LoadNotice where
  | begun
  | ended
  | probing
  | abandoned (cause : Abandon)
  deriving DecidableEq, Repr

/-- A spawn request of a mark unit (R52). -/
structure Spawn where
  entry : EntryId
  seq : BitVec 16
  pos : Int
  template : Template
  deriving DecidableEq, Repr

/-- A FLUSH loss policy notice to the CSU (R166). -/
inductive LossNotice where
  | track (k : TrackId)
  | line (n : LineId)
  deriving DecidableEq, Repr

/-- What one block has handed to another and the other has not yet taken, oldest first (log 2). `markLoss` and `lineLoss` count
the FLUSH loss policy notices of a track and of a line, one for each loss (R166). -/
structure Transit where
  toCsu : Vector (List CsuNotice) 4
  spawns : Vector (List Spawn) 4
  toMark : Vector (List MarkNotice) 4
  toLine : Vector (List LineNotice) 16
  toLsv : Vector (List LoadNotice) 16
  forcing : Vector Bool 16
  csuLoss : List LossNotice
  markLoss : Vector Nat 4
  lineLoss : Vector Nat 16
  inhibitLsv : Bool
  toQueue : PerLink (List Report)
  deriving DecidableEq, Repr

/-- Nothing on its way. -/
def Transit.empty : Transit where
  toCsu := Vector.replicate 4 []
  spawns := Vector.replicate 4 []
  toMark := Vector.replicate 4 []
  toLine := Vector.replicate 16 []
  toLsv := Vector.replicate 16 []
  forcing := Vector.replicate 16 false
  csuLoss := []
  markLoss := Vector.replicate 4 0
  lineLoss := Vector.replicate 16 0
  inhibitLsv := false
  toQueue := ⟨[], []⟩

/-- Levels that the outside world holds on the input pins (R25, R117, R124, R142). No reset changes them. -/
structure Pins where
  phase : Vector PhasePair 4
  sense : Vector SenseCond 16
  inhibit : Bool
  selected : Bool
  deriving DecidableEq, Repr

/-- The pin levels of `State.reset` (DESIGN CHOICE, log 9): phases low, sense NORMAL, INH low, CS1N high. -/
def Pins.rest : Pins where
  phase := Vector.replicate 4 ⟨false, false⟩
  sense := Vector.replicate 16 .normal
  inhibit := false
  selected := false

/-! ### The part -/

/-- The state of the VKT-416. `now` is the model's time in us (log 6); `pending` is the queue of commands that wait. -/
structure State where
  tracks : Vector Track 4
  csu : Csu
  marks : Vector Mark 4
  lines : Vector Line 16
  profiles : Vector Profile 8
  inhibited : Bool
  loads : Vector Load 16
  sweep : Sweep
  links : PerLink Link
  baud : Baud
  route : LinkId
  claims : Vector Claim 20
  queues : PerLink Queue
  transit : Transit
  pins : Pins
  now : Nat
  pending : List Instr
  deriving DecidableEq, Repr

/-- No command of this part ends in a fault: it has no exception and no instruction fault (INVENTORY.md, Faults). -/
inductive Fault where
  deriving DecidableEq, Repr

/-- Why a command has no meaning. -/
inductive Refusal where
  /-- Raised by `exec` for a row that is not modelled yet; safe (the machine stops). No arm raises it. -/
  | notModelled (mnemonic : String)
  deriving DecidableEq, Repr

/-- Every block at its reset value, with the RESET records of the given cause, and with the pin levels, the model's
time and the queue of commands that the reset does not touch (R6, R38, R48, R80, R100, R103, R117, R123, R133, R140, R157, R173). -/
def State.afterReset (cause : ResetCause) (pins : Pins) (now : Nat) (pending : List Instr) : State where
  tracks := Vector.replicate 4 .reset
  csu := .reset
  marks := Vector.replicate 4 .reset
  lines := Vector.replicate 16 .reset
  profiles := Vector.replicate 8 .reset
  inhibited := false
  loads := ⟨(pins.sense.toList.map Load.reset).toArray, by simp⟩
  sweep := .reset
  links := ⟨.reset, .reset⟩
  baud := ⟨.b115200, none, none⟩
  route := .link0
  claims := Vector.replicate 20 .free
  queues := ⟨.reset cause, .reset cause⟩
  transit := .empty
  pins := pins
  now := now
  pending := pending

/-- The part right after power-on, with nothing commanded (R6). -/
def State.reset : State := State.afterReset .power .rest 0 []

end Sys2Proof.Machine
end

