-- ==== Sys2Proof/Machine/Bytes.lean ====
section
/-! DEFINITION. Byte order, signed fields, the frame check sequence and the frame layout (Table 8-1, R183, R184). -/

namespace Sys2Proof.Machine

/-- The low `n` bytes of `v`, lowest first (00, "Byte order"). -/
def le : Nat → Nat → List Byte
  | 0, _ => []
  | n + 1, v => BitVec.ofNat 8 v :: le n (v / 256)

/-- An `n`-byte two's complement field, lowest byte first (R184). -/
def leInt (n : Nat) (v : Int) : List Byte := le n (v % (2 ^ (8 * n) : Nat)).toNat

/-- The unsigned value of bytes, lowest first. -/
def unLe : List Byte → Nat
  | [] => 0
  | b :: bs => b.toNat + 256 * unLe bs

/-- The value of an `n`-byte two's complement field whose unsigned value is `v` (R184). -/
def toSigned (n v : Nat) : Int := if v < 2 ^ (8 * n - 1) then v else (v : Int) - (2 ^ (8 * n) : Nat)

/-- The unsigned field of `size` bytes at offset `off` of a payload. -/
def fieldAt (p : List Byte) (off size : Nat) : Nat := unLe ((p.drop off).take size)

/-- The two's complement field of `size` bytes at offset `off` of a payload. -/
def signedAt (p : List Byte) (off size : Nat) : Int := toSigned size (fieldAt p off size)

/-- A yes/no byte: 00H no, 01H yes (R184). -/
def yesNo (b : Bool) : Byte := if b then 1 else 0

/-- One step of the check sequence register (R183, step 2). -/
def crcStep (r : BitVec 16) : BitVec 16 := if r.msb then (r <<< 1) ^^^ 0x1021#16 else r <<< 1

/-- The check sequence register after one byte (R183, step 2). -/
def crcByte (r : BitVec 16) (b : Byte) : BitVec 16 :=
  Nat.repeat crcStep 8 (r ^^^ (b.setWidth 16 <<< 8))

/-- The frame check sequence of bytes (R183). -/
def crc (bs : List Byte) : BitVec 16 := bs.foldl crcByte 0xFFFF#16

/-- The SYNC byte (Table 8-1). -/
def syncByte : Byte := 0xC3

/-- The two check sequence bytes, the high one first (R183). -/
def crcBytes (bs : List Byte) : List Byte :=
  [(crc bs >>> 8).setWidth 8, (crc bs).setWidth 8]

/-- A whole frame of the given TYPE, SEQ and payload (Table 8-1). -/
def frameBytes (type seq : Byte) (payload : List Byte) : List Byte :=
  let body := BitVec.ofNat 8 payload.length :: type :: seq :: payload
  syncByte :: (body ++ crcBytes body)

end Sys2Proof.Machine
end

