-- ==== Sys2Proof/Machine/Flags.lean ====
section
/-! DEFINITION. The codes of the enumerated fields, sets and statuses (Table 11-2, Table 11-4, Table 11-5, R184, R185), in both
directions, and the presence-flags byte (R186). -/

namespace Sys2Proof.Machine

/-- Source codes (Table 11-2). -/
def Source.code : Source → Byte
  | .absent => 0
  | .quad => 1
  | .sampled => 2
  | .sim => 3

/-- The source a code names (Table 11-2). -/
def sourceOf : Nat → Option Source
  | 0 => some .absent
  | 1 => some .quad
  | 2 => some .sampled
  | 3 => some .sim
  | _ => none

/-- The travel direction a code names (Table 11-2). -/
def travelOf : Nat → Option Travel
  | 0 => some .forward
  | 1 => some .reverse
  | _ => none

/-- The count sense a code names (Table 11-2). -/
def senseOf : Nat → Option CountSense
  | 0 => some .normal
  | 1 => some .inverted
  | _ => none

/-- Track state codes (Table 11-2). -/
def TrackState.code : TrackState → Byte
  | .disabled => 0
  | .settling => 1
  | .running => 2
  | .fault => 3

/-- Track cause codes (Table 11-2). -/
def TrackCause.code : TrackCause → Byte
  | .absent => 0
  | .sample => 1
  | .quad => 2
  | .range => 3
  | .overspeed => 4
  | .settled => 5
  | .discontinuity => 6

/-- Notify codes (Table 11-2). -/
def Notify.code : Notify → Byte
  | .silent => 0
  | .onFail => 1
  | .always => 2

/-- The notify level a code names (Table 11-2). -/
def notifyOf : Nat → Option Notify
  | 0 => some .silent
  | 1 => some .onFail
  | 2 => some .always
  | _ => none

/-- Mark state codes (Table 11-2). -/
def MarkState.code : MarkState → Byte
  | .off => 0
  | .armed => 1
  | .blanked => 2
  | .lost => 3

/-- Mark edge codes (Table 11-2). -/
def markEdgeCode : MarkEdge → Byte
  | .rising => 0
  | .falling => 1

/-- The mark edge a code names (Table 11-2). -/
def markEdgeOf : Nat → Option MarkEdge
  | 0 => some .rising
  | 1 => some .falling
  | _ => none

/-- Loss cause codes (Table 11-2). -/
def LossCause.code : LossCause → Byte
  | .absent => 0
  | .missing => 1
  | .trackFault => 2
  | .discontinuity => 3

/-- Line state codes (Table 11-2). -/
def LineState.code : LineState → Byte
  | .disabled => 0
  | .off => 1
  | .on => 2
  | .holdoff => 3
  | .test => 4
  | .fault => 5

/-- Collision policy codes (Table 11-2). -/
def Policy.code : Policy → Byte
  | .reject => 0
  | .retrigger => 1

/-- The collision policy a code names (Table 11-2). -/
def policyOf : Nat → Option Policy
  | 0 => some .reject
  | 1 => some .retrigger
  | _ => none

/-- Polarity codes (Table 11-2). -/
def Polarity.code : Polarity → Byte
  | .activeHigh => 0
  | .activeLow => 1

/-- The polarity a code names (Table 11-2). -/
def polarityOf : Nat → Option Polarity
  | 0 => some .activeHigh
  | 1 => some .activeLow
  | _ => none

/-- Pulse mode codes (Table 11-2). -/
def PulseMode.code : PulseMode → Byte
  | .time => 0
  | .distance => 1

/-- The pulse mode a code names (Table 11-2). -/
def pulseModeOf : Nat → Option PulseMode
  | 0 => some .time
  | 1 => some .distance
  | _ => none

/-- Pulse origin codes (Table 11-2). -/
def PulseOrigin.code : PulseOrigin → Byte
  | .cue => 0
  | .forced => 1

/-- Truncation reason codes (Table 11-2). -/
def Truncation.code : Truncation → Byte
  | .maxOn => 0
  | .track => 1
  | .discontinuity => 2
  | .inhibit => 3
  | .disabled => 4
  | .linkLost => 5

/-- Fault kind codes (Table 11-2). -/
def FaultKind.code : FaultKind → Byte
  | .openLoad => 0
  | .overload => 1
  | .stuck => 2

/-- Starter codes (Table 11-2). -/
def Starter.code : Starter → Byte
  | .absent => 0
  | .link .link0 => 1
  | .link .link1 => 2
  | .periodic => 3

/-- Sweep result codes (Table 11-2). -/
def SweepResult.code : SweepResult → Byte
  | .notRun => 0
  | .notEnabled => 1
  | .skippedMasked => 2
  | .skippedBusy => 3
  | .pass => 4
  | .openLoad => 5
  | .overload => 6

/-- Link codes (Table 11-2). -/
def linkCode : LinkId → Byte
  | .link0 => 0
  | .link1 => 1

/-- The link a code names (Table 11-2). -/
def linkOf : Nat → Option LinkId
  | 0 => some .link0
  | 1 => some .link1
  | _ => none

/-- Claim owner codes (Table 11-2). -/
def ownerCode : Option LinkId → Byte
  | none => 0
  | some .link0 => 1
  | some .link1 => 2

/-- Loss policy codes (Table 11-2). -/
def LossPolicy.code : LossPolicy → Byte
  | .keep => 0
  | .flush => 1

/-- The loss policy a code names (Table 11-2). -/
def lossPolicyOf : Nat → Option LossPolicy
  | 0 => some .keep
  | 1 => some .flush
  | _ => none

/-- Link state codes (Table 11-2). -/
def LinkState.code : LinkState → Byte
  | .idle => 0
  | .up => 1
  | .lost => 2

/-- Baud rate codes (Table 11-2). -/
def BaudRate.code : BaudRate → Byte
  | .b115200 => 0
  | .b230400 => 1
  | .b460800 => 2
  | .b921600 => 3

/-- The baud rate a code names (Table 11-2). -/
def baudOf : Nat → Option BaudRate
  | 0 => some .b115200
  | 1 => some .b230400
  | 2 => some .b460800
  | 3 => some .b921600
  | _ => none

/-- Reset cause codes (Table 11-2). -/
def ResetCause.code : ResetCause → Byte
  | .power => 0
  | .pin => 1
  | .command => 2

/-- Status codes (Table 11-4). -/
def Status.code : Status → Byte
  | .ok => 0x00
  | .unknownCommand => 0x01
  | .badLength => 0x02
  | .badValue => 0x03
  | .notOwner => 0x04
  | .heldByOther => 0x05
  | .trackDisabled => 0x06
  | .trackEnabled => 0x07
  | .wrongTrack => 0x08
  | .idInUse => 0x09
  | .notFound => 0x0A
  | .behind => 0x0B
  | .poolFull => 0x0C
  | .trackFull => 0x0D
  | .busy => 0x0E
  | .stillPresent => 0x0F
  | .lineInUse => 0x10
  | .wrongSource => 0x11
  | .lineOff => 0x12
  | .lineFault => 0x13
  | .inhibited => 0x14
  | .outOfRange => 0x15

/-- Outcome codes (Table 11-5). -/
def CueResult.code : CueResult → Byte
  | .fired => 0
  | .late => 1
  | .missed => 2
  | .passed => 3
  | .slow => 4
  | .collided => 5
  | .lineOff => 6
  | .lineFault => 7
  | .inhibited => 8

/-- The yes or no of a yes/no byte (R184). -/
def yesNoOf : Nat → Option Bool
  | 0 => some false
  | 1 => some true
  | _ => none

/-- A byte of flag bits, bit 0 first: a presence-flags byte (R184, R186). -/
def bitsByte : List Bool → Nat
  | [] => 0
  | b :: bs => (if b then 1 else 0) + 2 * bitsByte bs

/-- The flags byte of a list of at most eight bits. -/
def flagsByte (bs : List Bool) : Byte := BitVec.ofNat 8 (bitsByte bs)

/-- The byte of a fault kind set: bit 0 OPEN, bit 1 OVERLOAD, bit 2 STUCK (R184). -/
def FaultSet.code (f : FaultSet) : Byte := flagsByte [f.openLoad, f.overload, f.stuck]

/-- The fault kind set of a byte; none when any of bits 3 to 7 is set (R184). -/
def faultSetOf (v : Nat) : Option FaultSet :=
  if v < 8 then some ⟨v.testBit 0, v.testBit 1, v.testBit 2⟩ else none

/-- An index as one byte, 0FFH when it is absent (R184). -/
def indexOrAbsent {n : Nat} : Option (Fin n) → Byte
  | none => 0xFF
  | some i => BitVec.ofNat 8 i.val

/-- An index as one byte (R184). -/
def indexByte {n : Nat} (i : Fin n) : Byte := BitVec.ofNat 8 i.val

/-- The index a field names, none when it names no such instance (R186, step 3). -/
def indexOf (n v : Nat) : Option (Fin n) := if h : v < n then some ⟨v, h⟩ else none

/-- A value within a range, both ends in it (00, "Numbers"); none outside it (R186, step 3). -/
def within (lo hi v : Nat) : Option Nat := if lo ≤ v ∧ v ≤ hi then some v else none

/-- A signed value within a range; none outside it (R186, step 3). -/
def withinInt (lo hi v : Int) : Option Int := if lo ≤ v ∧ v ≤ hi then some v else none

end Sys2Proof.Machine
end

