-- ==== Sys2Proof/Machine/Reports.lean ====
section
/-! DEFINITION. The payload of each report (Table 10-1, Table 11-7, Table 11-8, Table 11-9, R188). -/

namespace Sys2Proof.Machine

/-- The origin code of a key (Table 11-2). -/
def CueKey.origin : CueKey → Byte
  | .host _ => 0
  | .mark _ _ => 1

/-- The four bytes of a key (Table 11-7). -/
def CueKey.bytes : CueKey → List Byte
  | .host id => le 2 id.toNat ++ [0, 0]
  | .mark e seq => indexByte e :: 0 :: le 2 seq.toNat

/-- The payload of a CUE_OUTCOME report (Table 11-7). -/
def OutcomeReport.payload (o : OutcomeReport) : List Byte :=
  [0x84, indexByte o.track, o.key.origin, o.result.code] ++ o.key.bytes ++ [indexByte o.line] ++ le 4 o.overshoot ++
    le 2 o.index ++ le 2 o.remaining ++ leInt 6 o.pos ++ [flagsByte [o.rangeEnd]]

/-- The payload of a MARK report (Table 11-8). -/
def MarkReport.payload (m : MarkReport) : List Byte :=
  [0x88, indexByte m.track] ++ le 2 m.seq.toNat ++ leInt 6 m.pos ++ leInt 4 m.vel ++
    [flagsByte [m.pitch.isSome, m.substituted, m.afterLoss]] ++ leInt 4 (m.pitch.getD 0)

/-- The payload of a report (Table 11-9, R188). -/
def Report.payload : Report → List Byte
  | .reset cause => [0x80, cause.code]
  | .linkResumed => [0x81]
  | .linkLost l => [0x82, linkCode l]
  | .overflow dropped => 0x83 :: le 2 dropped
  | .cueOutcome o => o.payload
  | .scheduleFlushed k line count => [0x85, indexByte k, 0x00, indexOrAbsent line] ++ le 2 count
  | .trackState k state cause => [0x86, indexByte k, state.code, cause.code]
  | .homed k pos => [0x87, indexByte k] ++ leInt 6 pos
  | .mark m => m.payload
  | .markRejected k pos pitch => [0x89, indexByte k] ++ leInt 6 pos ++ leInt 4 pitch
  | .markLost k cause => [0x8A, indexByte k, cause.code]
  | .spawnFailed k e seq reason => [0x8B, indexByte k, indexByte e] ++ le 2 seq.toNat ++ [reason.code]
  | .pulseTruncated n reason => [0x8C, indexByte n, reason.code]
  | .lineFault n kind => [0x8D, indexByte n, kind.code]
  | .sweepDone pass openLoad overload skipped aborted =>
    [0x8E, BitVec.ofNat 8 pass, BitVec.ofNat 8 openLoad, BitVec.ofNat 8 overload, BitVec.ofNat 8 skipped, yesNo aborted]
  | .inhibit asserted => [0x8F, yesNo asserted]

end Sys2Proof.Machine
end

