-- ==== Sys2Proof/Machine/Ops.lean ====
section
/-! DEFINITION. The shared operations: positions and the travel sign, counters, the updates of each part of the state, claims,
routing and raising of reports (R2, R161, R171, R172). -/

namespace Sys2Proof.Machine

/-! ### Positions, distances and counters -/

/-- The travel sign s (R2). -/
def Travel.sign : Travel → Int
  | .forward => 1
  | .reverse => -1

/-- Position `x` reaches the effective position `e`: s(x - e) ≥ 0 (00, "Positions and distances"). -/
def reaches (t : Travel) (x e : Int) : Bool := decide (0 ≤ t.sign * (x - e))

/-- Position `p` lies ahead of position `x`: s(p - x) > 0 (00, "Positions and distances"). -/
def isAhead (t : Travel) (p x : Int) : Bool := decide (0 < t.sign * (p - x))

/-- A position within the 48-bit range (00, "Positions and distances"). -/
def inRange (p : Int) : Bool := decide (Config.minPos ≤ p ∧ p ≤ Config.maxPos)

/-- The position of a range limit (R10). -/
def RangeLimit.pos : RangeLimit → Int
  | .low => Config.minPos
  | .high => Config.maxPos

/-- A value held to a range at its nearest limit. -/
def saturate (lo hi v : Int) : Int := if v < lo then lo else if hi < v then hi else v

/-- A value held to the signed 32-bit range (00, R19, R84, R86). -/
def saturate32 (v : Int) : Int := saturate (-2147483648) 2147483647 v

/-- One more, saturating at 65,535 (00, "Counters"). -/
def countUp (n : Nat) : Nat := if n < 65535 then n + 1 else 65535

/-- The moment that lies the given number of ms after now (log 6). -/
def afterMs (s : State) (ms : Nat) : Nat := s.now + ms * 1000

/-- The moment that lies the given number of us after now (log 6). -/
def afterUs (s : State) (us : Nat) : Nat := s.now + us

/-- Lines 0 to 15 in ascending order. -/
def allLines : List LineId := [0, 1, 2, 3, 4, 5, 6, 7, 8, 9, 10, 11, 12, 13, 14, 15]

/-- Tracks 0 to 3 in ascending order. -/
def allTracks : List TrackId := [0, 1, 2, 3]

/-- Template entries 0 to 7 in ascending order. -/
def allEntries : List EntryId := [0, 1, 2, 3, 4, 5, 6, 7]

/-- Resource numbers 0 to 19 in ascending order (09). -/
def allResources : List (Fin 20) := [0, 1, 2, 3, 4, 5, 6, 7, 8, 9, 10, 11, 12, 13, 14, 15, 16, 17, 18, 19]

/-! ### Updates of the state -/

/-- The item of a link. -/
def PerLink.at_ {α : Type} (p : PerLink α) : LinkId → α
  | .link0 => p.on0
  | .link1 => p.on1

/-- The same items with one replaced. -/
def PerLink.put {α : Type} (p : PerLink α) (l : LinkId) (a : α) : PerLink α :=
  match l with
  | .link0 => { p with on0 := a }
  | .link1 => { p with on1 := a }

/-- The other link. -/
def otherLink : LinkId → LinkId
  | .link0 => .link1
  | .link1 => .link0

/-- Replace track unit k. -/
def setTrack (k : TrackId) (t : Track) (s : State) : State := { s with tracks := s.tracks.set k t }

/-- Replace mark unit k. -/
def setMark (k : TrackId) (m : Mark) (s : State) : State := { s with marks := s.marks.set k m }

/-- Replace line unit n. -/
def setLine (n : LineId) (u : Line) (s : State) : State := { s with lines := s.lines.set n u }

/-- Replace the LSV's items of line n. -/
def setLoad (n : LineId) (u : Load) (s : State) : State := { s with loads := s.loads.set n u }

/-- Replace a profile. -/
def putProfile (i : ProfileId) (p : Profile) (s : State) : State := { s with profiles := s.profiles.set i p }

/-- Replace a claim entry. -/
def setClaim (r : Fin 20) (c : Claim) (s : State) : State := { s with claims := s.claims.set r c }

/-- Replace a link interface. -/
def setLink (l : LinkId) (u : Link) (s : State) : State := { s with links := s.links.put l u }

/-- Replace a report queue. -/
def setQueue (l : LinkId) (q : Queue) (s : State) : State := { s with queues := s.queues.put l q }

/-- Replace the schedule of track k. -/
def setSchedule (k : TrackId) (cs : List Cue) (s : State) : State :=
  { s with csu := { s.csu with schedules := s.csu.schedules.set k cs } }

/-- Replace the evaluation mode of schedule k. -/
def setMode (k : TrackId) (m : EvalMode) (s : State) : State :=
  { s with csu := { s.csu with modes := s.csu.modes.set k m } }

/-- Record the position of track k that the CSU has taken (R50). -/
def setTaken (k : TrackId) (x : Int) (s : State) : State :=
  { s with csu := { s.csu with taken := s.csu.taken.set k x } }

/-- Replace the admission stamp counter. -/
def setStamp (n : Nat) (s : State) : State := { s with csu := { s.csu with stamp := n } }

/-- Replace the evaluation event in progress. -/
def setEvaluation (e : Option Evaluation) (s : State) : State := { s with csu := { s.csu with evaluation := e } }

/-- Replace the sweep record. -/
def setSweep (w : Sweep) (s : State) : State := { s with sweep := w }

/-- Replace what is on its way between blocks. -/
def setTransit (t : Transit) (s : State) : State := { s with transit := t }

/-! ### Handing over notices (log 2) -/

/-- Hand the CSU a notice of track unit k. -/
def tellCsu (k : TrackId) (n : CsuNotice) (s : State) : State :=
  setTransit { s.transit with toCsu := s.transit.toCsu.set k (s.transit.toCsu[k] ++ [n]) } s

/-- Hand MUk a notice of track unit k. -/
def tellMark (k : TrackId) (n : MarkNotice) (s : State) : State :=
  setTransit { s.transit with toMark := s.transit.toMark.set k (s.transit.toMark[k] ++ [n]) } s

/-- Hand line n a notice of its track unit. -/
def tellLine (n : LineId) (m : LineNotice) (s : State) : State :=
  setTransit { s.transit with toLine := s.transit.toLine.set n (s.transit.toLine[n] ++ [m]) } s

/-- Hand the LSV a notice of line n. -/
def tellLsv (n : LineId) (m : LoadNotice) (s : State) : State :=
  setTransit { s.transit with toLsv := s.transit.toLsv.set n (s.transit.toLsv[n] ++ [m]) } s

/-- Hand the CSU a spawn request of MUk (R52). -/
def tellSpawn (k : TrackId) (r : Spawn) (s : State) : State :=
  setTransit { s.transit with spawns := s.transit.spawns.set k (s.transit.spawns[k] ++ [r]) } s

/-- Replace the notices of track unit k to the CSU. -/
def putToCsu (k : TrackId) (ns : List CsuNotice) (s : State) : State :=
  setTransit { s.transit with toCsu := s.transit.toCsu.set k ns } s

/-- Replace the notices of track unit k to MUk. -/
def putToMark (k : TrackId) (ns : List MarkNotice) (s : State) : State :=
  setTransit { s.transit with toMark := s.transit.toMark.set k ns } s

/-- Replace the notices to line n. -/
def putToLine (n : LineId) (ns : List LineNotice) (s : State) : State :=
  setTransit { s.transit with toLine := s.transit.toLine.set n ns } s

/-- Replace the notices of line n to the LSV. -/
def putToLsv (n : LineId) (ns : List LoadNotice) (s : State) : State :=
  setTransit { s.transit with toLsv := s.transit.toLsv.set n ns } s

/-- Replace the spawn requests of MUk. -/
def putSpawns (k : TrackId) (ns : List Spawn) (s : State) : State :=
  setTransit { s.transit with spawns := s.transit.spawns.set k ns } s

/-- Set or clear the forcing of line n that the line has not yet taken (R115). -/
def putForcing (n : LineId) (b : Bool) (s : State) : State :=
  setTransit { s.transit with forcing := s.transit.forcing.set n b } s

/-! ### Claims and routing -/

/-- Resource number of a track (09). -/
def trackResource (k : TrackId) : Fin 20 := ⟨k.val, by omega⟩

/-- Resource number of a line (09). -/
def lineResource (n : LineId) : Fin 20 := ⟨4 + n.val, by omega⟩

/-- The owner of a track (R157). -/
def trackOwner (s : State) (k : TrackId) : Option LinkId := s.claims[trackResource k].owner

/-- The owner of a line (R157). -/
def lineOwner (s : State) (n : LineId) : Option LinkId := s.claims[lineResource n].owner

/-- The entry is owned by the link other than `l` (R161). -/
def heldByOther (l : LinkId) (owner : Option LinkId) : Bool := owner == some (otherLink l)

/-- A link is LOST (Table 9-1). -/
def isLost (s : State) (l : LinkId) : Bool := (s.links.at_ l).state == .lost

/-- Steps 2 to 4 of R171: the default link, else the other, each while not LOST. -/
def routeUnowned (s : State) : Option LinkId :=
  if !isLost s s.route then some s.route
  else if !isLost s (otherLink s.route) then some (otherLink s.route)
  else none

/-- The queue that a record about a resource with this owner goes to (R171). -/
def routeOwned (s : State) (owner : Option LinkId) : Option LinkId :=
  match owner with
  | some l => if (s.links.at_ l).state == .up then some l else routeUnowned s
  | none => routeUnowned s

/-- Hand a routed record to a queue, behind those handed to it before (R174, log 5). -/
def raiseTo (l : LinkId) (r : Report) (s : State) : State :=
  setTransit { s.transit with toQueue := s.transit.toQueue.put l (s.transit.toQueue.at_ l ++ [r]) } s

/-- Raise a record for the link that routing chose; without one it is dropped (R171, step 4). -/
def raiseRouted (dest : Option LinkId) (r : Report) (s : State) : State :=
  match dest with
  | some l => raiseTo l r s
  | none => s

/-- Raise a record about a track (R171). -/
def raiseTrack (k : TrackId) (r : Report) (s : State) : State := raiseRouted (routeOwned s (trackOwner s k)) r s

/-- Raise a record about a line (R171). -/
def raiseLine (n : LineId) (r : Report) (s : State) : State := raiseRouted (routeOwned s (lineOwner s n)) r s

/-- Raise a record without an owner (R171). -/
def raiseUnowned (r : Report) (s : State) : State := raiseRouted (routeUnowned s) r s

/-- Raise a record for one link while it is not LOST (R137, R167, R172). -/
def raiseUnlessLost (l : LinkId) (r : Report) (s : State) : State := if isLost s l then s else raiseTo l r s

/-- Raise an INHIBIT record for every link that is not LOST (R172). -/
def raiseInhibit (asserted : Bool) (s : State) : State :=
  raiseUnlessLost .link1 (.inhibit asserted) (raiseUnlessLost .link0 (.inhibit asserted) s)

/-! ### Counts of the CSU, read off the schedules (log 11) -/

/-- Cue count of a track (R44). -/
def cueCount (s : State) (k : TrackId) : Nat := s.csu.schedules[k].length

/-- Pending cues of one schedule that name a line. -/
def naming (n : LineId) (cs : List Cue) : Nat := (cs.filter fun c => c.line == n).length

/-- Pending count of a line (R46). -/
def pendingCount (s : State) (n : LineId) : Nat :=
  naming n s.csu.schedules[0] + naming n s.csu.schedules[1] + naming n s.csu.schedules[2] +
    naming n s.csu.schedules[3]

/-- Number of cues in the four schedules (R41). -/
def pendingCues (s : State) : Nat := cueCount s 0 + cueCount s 1 + cueCount s 2 + cueCount s 3

/-- Number of free records (R41). -/
def freeCount (s : State) : Nat := Config.poolSize - pendingCues s

/-! ### Levels the part drives -/

/-- The level of OUTn; true is high (R105). -/
def outPin (s : State) (n : LineId) : Bool :=
  let driven := s.lines[n].state == .on || s.lines[n].state == .test
  match s.lines[n].cfg.polarity with
  | .activeHigh => driven
  | .activeLow => !driven

/-- TAk is an output of the part, the sensor clock (R24). -/
def taDriven (s : State) (k : TrackId) : Bool := s.tracks[k].cfg.source == .sampled

/-- The level the part drives on TAk, true is high: none while TAk is an input; it rests high, and falls as a transfer starts.
Between the start and the completion of a transfer the level is that of its start (R24, R29, R36, log 7). -/
def taPin (s : State) (k : TrackId) : Option Bool := if taDriven s k then some (!s.tracks[k].transfer) else none

end Sys2Proof.Machine
end

