-- ==== Sys2Proof/Machine/LineUnit.lean ====
section
/-! DEFINITION. The line units: beginning, retriggering and ending pulses, the answer to a firing request, the track notices, the
timers of a line and the inhibit input (06). -/

namespace Sys2Proof.Machine

/-! ### Pulses -/

/-- Mode of an active pulse (Table 6-2). -/
def PulseEnd.mode : PulseEnd → PulseMode
  | .time _ => .time
  | .distance _ _ _ => .distance

/-- The range limit in travel sense (R106). -/
def limitAhead : Travel → Int
  | .forward => Config.maxPos
  | .reverse => Config.minPos

/-- The end position of a DISTANCE pulse of the given width begun at `x` (R106, step 3). -/
def distanceEnd (t : Travel) (x : Int) (width : Nat) : Int :=
  if inRange (x + t.sign * width) then x + t.sign * width else limitAhead t

/-- The end condition of a pulse begun at `x` with a profile and an optional width override; an override
above 65,535 that meets a TIME profile is applied as 65,535 us (R106, steps 2 and 3). -/
def pulseEndFor (s : State) (t : Travel) (x : Int) (p : Profile) (width : Option Nat) : PulseEnd :=
  match p.mode with
  | .time => .time (afterUs s (min (width.getD p.width) 65535))
  | .distance =>
    .distance (distanceEnd t x (width.getD p.width)) t (if p.maxOn = 0 then none else some (afterMs s p.maxOn))

/-- The active pulse record of a firing request (R106, step 3). -/
def cuePulse (s : State) (e : EvalInput) (r : FiringRequest) : Pulse where
  origin := .cue
  finish := pulseEndFor s e.travel e.pos s.profiles[r.profile] r.width
  profile := r.profile
  fromOverride := r.fromOverride
  holdoff := s.profiles[r.profile].holdoff

/-- The active pulse record of a FORCE_LINE of the given width (R112). -/
def forcedPulse (s : State) (n : LineId) (width : Nat) : Pulse where
  origin := .forced
  finish := .time (afterUs s width)
  profile := s.lines[n].cfg.profile
  fromOverride := false
  holdoff := s.profiles[s.lines[n].cfg.profile].holdoff

/-- Begin a pulse from OFF or TEST: a probe is abandoned, the line enters ON, the LSV is told (R106). -/
def beginPulse (n : LineId) (p : Pulse) (s : State) : State :=
  let s := if s.lines[n].state = .test then tellLsv n (.abandoned .pulse) s else s
  tellLsv n .begun (setLine n { s.lines[n] with state := .on, pulse := some p, holdoffTimer := none } s)

/-- Rewrite the active pulse in place; the LSV is not told (R107). -/
def retrigger (n : LineId) (p : Pulse) (s : State) : State :=
  setLine n { s.lines[n] with pulse := some p } s

/-- Follow a pulse end by HOLDOFF or OFF and tell the LSV (R111). -/
def endPulse (n : LineId) (s : State) : State :=
  match s.lines[n].pulse with
  | some p =>
    let u : Line :=
      if p.holdoff = 0 then { s.lines[n] with state := .off, pulse := none, holdoffTimer := none }
      else { s.lines[n] with state := .holdoff, pulse := none, holdoffTimer := some (afterUs s p.holdoff) }
    tellLsv n .ended (setLine n u s)
  | none => s

/-- End a pulse with a PULSE_TRUNCATED report, followed by R111 (R109, R110, R118, R120). -/
def truncatePulse (n : LineId) (reason : Truncation) (s : State) : State :=
  endPulse n (raiseLine n (.pulseTruncated n reason) s)

/-- The line's answer to a firing request, and its effect (R69, Table 4-3). Where the inhibit is ASSERTED and the line is DISABLED,
in FAULT or in HOLDOFF, the first row of the table that applies is taken: DEDUCED, log 31. -/
def answerFiring (e : EvalInput) (r : FiringRequest) (s : State) : CueResult × State :=
  match s.lines[r.line].state with
  | .disabled => (.lineOff, s)
  | .fault => (.lineFault, s)
  | .holdoff => (if s.inhibited then .inhibited else .collided, s)
  | .on =>
    if s.inhibited then (.inhibited, s)
    else
      match s.lines[r.line].cfg.policy with
      | .reject => (.collided, s)
      | .retrigger => (.fired, retrigger r.line (cuePulse s e r) s)
  | .off => if s.inhibited then (.inhibited, s) else (.fired, beginPulse r.line (cuePulse s e r) s)
  | .test => if s.inhibited then (.inhibited, s) else (.fired, beginPulse r.line (cuePulse s e r) s)

/-! ### Notices of the track unit -/

/-- A line has an active DISTANCE pulse and is assigned to track k (R3, R110). -/
def hasDistancePulse (u : Line) (k : TrackId) : Bool :=
  u.state == .on && u.cfg.track == k &&
    match u.pulse with
    | some p => p.finish.mode == .distance
    | none => false

/-- Line n tests a position change of its track for the end of its DISTANCE pulse (R108). -/
def testDistanceEnd (n : LineId) (k : TrackId) (x : Int) (s : State) : State :=
  if hasDistancePulse s.lines[n] k then
    match s.lines[n].pulse with
    | some ⟨_, .distance e t _, _, _, _⟩ => if reaches t x e then endPulse n s else s
    | _ => s
  else s

/-- Line n takes the notice of its track unit that ends a DISTANCE pulse (R110). -/
def takeTruncation (n : LineId) (k : TrackId) (reason : Truncation) (s : State) : State :=
  if hasDistancePulse s.lines[n] k then truncatePulse n reason s else s

/-- Line n takes a notice of a track unit. -/
def takeLineNotice (n : LineId) (m : LineNotice) (s : State) : State :=
  match m with
  | .change k x => testDistanceEnd n k x s
  | .truncate k reason => takeTruncation n k reason s

/-- DISTANCE_PULSE_END (R108): line n takes the next position change offered to it. -/
def distancePulseEnd (n : LineId) (s : State) : State :=
  match s.transit.toLine[n] with
  | .change k x :: rest => testDistanceEnd n k x (putToLine n rest s)
  | _ => s

/-- TRACK_NOTICE_AT_LINE (R110): line n takes the next notice that ends DISTANCE pulses. -/
def trackNoticeAtLine (n : LineId) (s : State) : State :=
  match s.transit.toLine[n] with
  | .truncate k reason :: rest => takeTruncation n k reason (putToLine n rest s)
  | _ => s

/-! ### Timers of a line -/

/-- TIME_PULSE_END (R108): the end time of a TIME pulse is reached. -/
def timePulseEnd (n : LineId) (s : State) : State :=
  match s.lines[n].state, s.lines[n].pulse with
  | .on, some ⟨_, .time _, _, _, _⟩ => endPulse n s
  | _, _ => s

/-- MAX_ON_EXPIRY (R109): the running max-on timer of a DISTANCE pulse expires. -/
def maxOnExpiry (n : LineId) (s : State) : State :=
  match s.lines[n].state, s.lines[n].pulse with
  | .on, some ⟨_, .distance _ _ (some _), _, _, _⟩ => truncatePulse n .maxOn s
  | _, _ => s

/-- HOLDOFF_EXPIRY (R111): the line enters OFF. -/
def holdoffExpiry (n : LineId) (s : State) : State :=
  if s.lines[n].state = .holdoff then setLine n { s.lines[n] with state := .off, holdoffTimer := none } s else s

/-! ### Loss policy and inhibit -/

/-- LINE_LOSS_POLICY (R120, R166): line n takes one notice of a FLUSH loss policy; in ON it ends its pulse with reason
LINK_LOST. -/
def lineLossPolicy (n : LineId) (s : State) : State :=
  if s.transit.lineLoss[n] = 0 then s
  else
    let s := setTransit { s.transit with lineLoss := s.transit.lineLoss.set n (s.transit.lineLoss[n] - 1) } s
    if s.lines[n].state = .on then truncatePulse n .linkLost s else s

/-- The effect of an inhibit assertion on one line (R118, steps 2 and 3). -/
def inhibitLine (s : State) (n : LineId) : State :=
  match s.lines[n].state with
  | .on => truncatePulse n .inhibit s
  | .test => tellLsv n (.abandoned .inhibit) (setLine n { s.lines[n] with state := .off } s)
  | _ => s

/-- An inhibit assertion: the condition, the INHIBIT report, every line in ON or TEST, and the notice to the
LSV (R118, R136). -/
def assertInhibit (s : State) : State :=
  let s := raiseInhibit true { s with inhibited := true }
  let s := allLines.foldl inhibitLine s
  setTransit { s.transit with inhibitLsv := true } s

/-- INHIBIT_ASSERTION (R118): INH rises. -/
def inhibitAssertion (s : State) : State :=
  let s := { s with pins := { s.pins with inhibit := true } }
  if s.inhibited then s else assertInhibit s

/-- INHIBIT_RELEASE (R119): INH falls. -/
def inhibitRelease (s : State) : State :=
  let s := { s with pins := { s.pins with inhibit := false } }
  if s.inhibited then raiseInhibit false { s with inhibited := false } else s

/-! ### The rows of this block -/

/-- Meaning of DISTANCE_PULSE_END. -/
def execDistancePulseEnd (n : LineId) (s : State) : Host.Outcome State Fault Refusal := .next (distancePulseEnd n s)

/-- Meaning of TRACK_NOTICE_AT_LINE. -/
def execTrackNoticeAtLine (n : LineId) (s : State) : Host.Outcome State Fault Refusal := .next (trackNoticeAtLine n s)

/-- Meaning of TIME_PULSE_END. -/
def execTimePulseEnd (n : LineId) (s : State) : Host.Outcome State Fault Refusal := .next (timePulseEnd n s)

/-- Meaning of MAX_ON_EXPIRY. -/
def execMaxOnExpiry (n : LineId) (s : State) : Host.Outcome State Fault Refusal := .next (maxOnExpiry n s)

/-- Meaning of HOLDOFF_EXPIRY. -/
def execHoldoffExpiry (n : LineId) (s : State) : Host.Outcome State Fault Refusal := .next (holdoffExpiry n s)

/-- Meaning of LINE_LOSS_POLICY. -/
def execLineLossPolicy (n : LineId) (s : State) : Host.Outcome State Fault Refusal := .next (lineLossPolicy n s)

/-- Meaning of INHIBIT_ASSERTION. -/
def execInhibitAssertion (s : State) : Host.Outcome State Fault Refusal := .next (inhibitAssertion s)

/-- Meaning of INHIBIT_RELEASE. -/
def execInhibitRelease (s : State) : Host.Outcome State Fault Refusal := .next (inhibitRelease s)

end Sys2Proof.Machine
end

