-- ==== Sys2Proof/Machine/LoadSupervisor.lean ====
section
/-! DEFINITION. The Load Supervisor: the drive view, the judgement of sense conditions, latching and forcing, and the probe
sweep (07). -/

namespace Sys2Proof.Machine

/-! ### Fault sets -/

/-- A kind is in a set. -/
def FaultSet.has (f : FaultSet) : FaultKind → Bool
  | .openLoad => f.openLoad
  | .overload => f.overload
  | .stuck => f.stuck

/-- A set with one kind added. -/
def FaultSet.add (f : FaultSet) : FaultKind → FaultSet
  | .openLoad => { f with openLoad := true }
  | .overload => { f with overload := true }
  | .stuck => { f with stuck := true }

/-- The kinds of `f` that are not in `g`. -/
def FaultSet.minus (f g : FaultSet) : FaultSet :=
  ⟨f.openLoad && !g.openLoad, f.overload && !g.overload, f.stuck && !g.stuck⟩

/-- The kinds in both sets. -/
def FaultSet.meet (f g : FaultSet) : FaultSet :=
  ⟨f.openLoad && g.openLoad, f.overload && g.overload, f.stuck && g.stuck⟩

/-- OVERLOAD or STUCK is in the set: an enabled line with it is in FAULT (R115). -/
def FaultSet.forces (f : FaultSet) : Bool := f.overload || f.stuck

/-- The kinds whose condition is present (R130). -/
def presentKinds (u : Load) : FaultSet where
  openLoad := u.view == .active && u.sense == .noLoad
  overload := u.view == .active && u.sense == .overcurrent
  stuck := u.sense == .stuckOn

/-! ### Latching and forcing -/

/-- Enter an unmasked kind that is not yet latched in the latched set and report it (R128). -/
def latch (n : LineId) (kind : FaultKind) (s : State) : State :=
  if s.loads[n].masked.has kind || s.loads[n].latched.has kind then s
  else raiseLine n (.lineFault n kind) (setLoad n { s.loads[n] with latched := s.loads[n].latched.add kind } s)

/-- The LSV's items of line n with the drive view INACTIVE and the blanking timer stopped (R124). -/
def quietLoad (n : LineId) (s : State) : State :=
  setLoad n { s.loads[n] with view := .inactive, blanking := .stopped } s

/-- Force a line that is neither DISABLED nor in FAULT: the forcing is handed to the line, and the drive view and
the blanking timer are set in the same event (R115, R124, R129). -/
def forceLine (n : LineId) (s : State) : State :=
  if s.lines[n].state = .disabled ∨ s.lines[n].state = .fault then s
  else putForcing n true (quietLoad n s)

/-- Latch OVERLOAD or STUCK, unless it is masked, and force the line (R126, R127, R128). -/
def latchForcing (n : LineId) (kind : FaultKind) (s : State) : State :=
  if s.loads[n].masked.has kind then s else forceLine n (latch n kind s)

/-! ### The sweep record -/

/-- Record the result of a line (R134). -/
def setResult (n : LineId) (r : SweepResult) (s : State) : State :=
  setSweep { s.sweep with results := s.sweep.results.set n r } s

/-- The number of lines with a result that `p` accepts (R137). -/
def countResults (s : State) (p : SweepResult → Bool) : Nat := (s.sweep.results.toList.filter p).length

/-- A result that counts as skipped (R137). -/
def SweepResult.skipped : SweepResult → Bool
  | .notEnabled => true
  | .skippedMasked => true
  | .skippedBusy => true
  | _ => false

/-- The SWEEP_DONE report of the sweep record (R137). -/
def sweepDone (s : State) : Report :=
  .sweepDone (countResults s (· == .pass)) (countResults s (· == .openLoad)) (countResults s (· == .overload))
    (countResults s SweepResult.skipped) s.sweep.aborted

/-- Raise SWEEP_DONE, routed by the starter (R137, step 3). -/
def raiseSweepDone (s : State) : State :=
  match s.sweep.starter with
  | .link l => if isLost s l then raiseUnowned (sweepDone s) s else raiseTo l (sweepDone s) s
  | _ => raiseUnowned (sweepDone s) s

/-- End a sweep (R137). -/
def endSweep (s : State) : State :=
  raiseSweepDone (setSweep { s.sweep with running := false, current := none, probeTimer := none, request := none } s)

/-- Visit the given lines in turn until a probe start is sent; after the last the sweep ends (R134, R137). -/
def visitLines : List LineId → State → State
  | [], s => endSweep s
  | n :: rest, s =>
    let s := setSweep { s.sweep with current := some n } s
    if s.lines[n].state = .disabled then visitLines rest (setResult n .notEnabled s)
    else if s.loads[n].masked.openLoad then visitLines rest (setResult n .skippedMasked s)
    else setSweep { s.sweep with request := some n } s

/-- Continue the sweep with the line after `n` (R134). -/
def continueSweep (n : LineId) (s : State) : State := visitLines (allLines.drop (n.val + 1)) s

/-- Start a sweep (R134). -/
def beginSweep (starter : Starter) (s : State) : State :=
  visitLines allLines
    (setSweep { s.sweep with running := true, starter := starter, aborted := false,
                             results := Vector.replicate 16 .notRun } s)

/-- The probe of line n is in progress at the LSV (R135). -/
def probing (s : State) (n : LineId) : Bool :=
  s.sweep.running && s.sweep.current == some n && s.sweep.probeTimer.isSome

/-- Tell line n that its probe has ended: a line in TEST enters OFF (R116). -/
def endProbeAtLine (n : LineId) (s : State) : State :=
  if s.lines[n].state = .test then setLine n { s.lines[n] with state := .off } s else s

/-- Stop the probe timer (R135, R136). -/
def stopProbe (s : State) : State := setSweep { s.sweep with probeTimer := none } s

/-- Set the drive view of line n (R124). -/
def setView (n : LineId) (v : DriveView) (s : State) : State := setLoad n { s.loads[n] with view := v } s

/-! ### Judgement -/

/-- A forced line ends any pulse, holdoff or probe and enters FAULT; a DISABLED line stays as it is (R115). -/
def forcedLine (u : Line) : Line :=
  if u.state = .disabled then u else { u with state := .fault, pulse := none, holdoffTimer := none }

/-- Force a line at the overload of its probe: a line in TEST leaves it for FAULT in the same event, since no line is in TEST when
its probe has ended (R115, R133, R135, log 18). -/
def forceProbedLine (n : LineId) (s : State) : State :=
  if s.lines[n].state = .test then putForcing n false (quietLoad n (setLine n (forcedLine s.lines[n]) s)) else forceLine n s

/-- OVERCURRENT during the probe of line n ends it with result OVERLOAD, and the sweep continues (R126, R135). -/
def probeOverload (n : LineId) (s : State) : State :=
  if probing s n then
    let s := setView n .inactive (stopProbe (setResult n .overload s))
    let s := if s.loads[n].masked.overload then endProbeAtLine n s else forceProbedLine n (latch n .overload s)
    continueSweep n s
  else latchForcing n .overload s

/-- A moment of judgement: the present sense condition against the drive view (R124 to R127, R135). -/
def judge (n : LineId) (s : State) : State :=
  match s.loads[n].view, s.loads[n].sense with
  | .active, .overcurrent => latchForcing n .overload s
  | .active, .noLoad => if s.loads[n].blanking = .expired then latch n .openLoad s else s
  | .probe, .overcurrent => probeOverload n s
  | .inactive, .stuckOn => latchForcing n .stuck s
  | _, _ => s

/-! ### Notices of a line -/

/-- The blanking timer at a pulse begin; a blanking time of 0 expires as it starts (R125). -/
def blankingAtBegin (s : State) (n : LineId) : Blanking :=
  if s.loads[n].blankTime = 0 then .expired else .running (afterUs s s.loads[n].blankTime)

/-- Abort the running sweep: aborted becomes yes and the sweep ends (R136). -/
def abortSweep (s : State) : State := endSweep (setSweep { s.sweep with aborted := true } s)

/-- The drive view that an abandoned probe leaves (R124). -/
def viewAfterAbandon : Abandon → DriveView
  | .pulse => .active
  | .disabling => .inactive
  | .inhibit => .inactive

/-- The LSV takes the notice of an abandoned probe; a probe that it has already ended has no further
effect on the sweep (R136). -/
def takeAbandoned (n : LineId) (cause : Abandon) (s : State) : State :=
  if probing s n then
    let s := setView n (viewAfterAbandon cause) (stopProbe (setResult n .skippedBusy s))
    let s := judge n s
    match cause with
    | .inhibit => abortSweep s
    | _ => continueSweep n s
  else judge n (setView n (viewAfterAbandon cause) s)

/-- The LSV takes a notice of line n (R124). -/
def takeLoadNotice (n : LineId) (m : LoadNotice) (s : State) : State :=
  match m with
  | .begun =>
    judge n (setLoad n { s.loads[n] with view := .active, blanking := blankingAtBegin s n } s)
  | .ended => judge n (quietLoad n s)
  | .probing =>
    if s.sweep.running && s.sweep.current == some n then
      judge n (setView n .probe (setSweep { s.sweep with probeTimer := some (afterUs s Config.probeTime) } s))
    else s
  | .abandoned cause => takeAbandoned n cause s

/-- The LSV takes every notice of line n still on its way, in order (log 18, log 19). -/
def takeAllLoadNotices (n : LineId) (s : State) : State :=
  s.transit.toLsv[n].foldl (fun s m => takeLoadNotice n m s) (putToLsv n [] s)

/-! ### The line takes a forcing -/

/-- The four results a probe can have. -/
def probeResult (i : Fin 4) : SweepResult :=
  match i with
  | 0 => .pass
  | 1 => .openLoad
  | 2 => .overload
  | 3 => .skippedBusy

/-- The result of the probe of line n that a forcing ends: a free value, since R115 leaves it to the LSV and R135 states none
(log 29). -/
def forcedResult (s : State) (n : LineId) : SweepResult := probeResult (Config.forcedProbe n.val s.now s.sweep.forced)

/-- The probe of line n ends at a forcing, with a free result (R115, log 29). -/
def endForcedProbe (n : LineId) (s : State) : State :=
  let s' := setResult n (forcedResult s n) s
  setSweep { s'.sweep with probeTimer := none, forced := s.sweep.forced + 1 } s'

/-- FORCING (R115): line n takes the forcing that the LSV handed it. The notices the line gave before it are
taken first, the drive view ends INACTIVE, and a probe in progress ends and the sweep continues (R124, log 18, log 29). -/
def takeForcing (n : LineId) (s : State) : State :=
  if s.transit.forcing[n] then
    let s := putForcing n false (takeAllLoadNotices n s)
    if s.lines[n].state = .disabled then s
    else if probing s n then continueSweep n (judge n (quietLoad n (setLine n (forcedLine s.lines[n]) (endForcedProbe n s))))
    else judge n (quietLoad n (setLine n (forcedLine s.lines[n]) s))
  else s

/-! ### Events at the LSV -/

/-- The pin SNn presents a condition. -/
def setSensePin (n : LineId) (c : SenseCond) (s : State) : State :=
  { s with pins := { s.pins with sense := s.pins.sense.set n c } }

/-- SENSE_EVENT (R124): the condition on SNn changes and is judged. -/
def senseEvent (n : LineId) (c : SenseCond) (s : State) : State :=
  if s.loads[n].sense = c then s
  else judge n (setLoad n { s.loads[n] with sense := c } (setSensePin n c s))

/-- DRIVE_VIEW_NOTICE (R124): the LSV takes the next notice of line n, a pulse begin, a pulse end or a probe start. -/
def driveViewNotice (n : LineId) (s : State) : State :=
  match s.transit.toLsv[n] with
  | .begun :: rest => takeLoadNotice n .begun (putToLsv n rest s)
  | .ended :: rest => takeLoadNotice n .ended (putToLsv n rest s)
  | .probing :: rest => takeLoadNotice n .probing (putToLsv n rest s)
  | _ => s

/-- ABANDONMENT (R136): the LSV takes the next notice of line n, an abandoned probe. -/
def abandonment (n : LineId) (s : State) : State :=
  match s.transit.toLsv[n] with
  | .abandoned cause :: rest => takeAbandoned n cause (putToLsv n rest s)
  | _ => s

/-- BLANKING_EXPIRY (R125): the blanking timer of line n expires; NO_LOAD is judged if the view is ACTIVE. -/
def blankingExpiry (n : LineId) (s : State) : State :=
  match s.loads[n].blanking with
  | .running _ => judge n (setLoad n { s.loads[n] with blanking := .expired } s)
  | _ => s

/-- PERIOD_TIMER_EXPIRY (R133): the timer starts again, and a PERIODIC sweep starts if the sweep is IDLE and the
inhibit condition RELEASED. -/
def periodTimerExpiry (s : State) : State :=
  match s.sweep.periodTimer with
  | some _ =>
    let s := setSweep { s.sweep with periodTimer := some (afterMs s s.sweep.period) } s
    if s.sweep.running || s.inhibited then s
    else beginSweep .periodic (setTransit { s.transit with inhibitLsv := false } s)
  | none => s

/-- PROBE_START (R116, R134): line n takes the probe start, after any forcing handed to it before (log 18); started, it enters TEST
and tells the LSV; busy, the result is SKIPPED_BUSY and the sweep continues. -/
def probeStart (n : LineId) (s : State) : State :=
  if s.sweep.request = some n then
    let s := takeForcing n (setSweep { s.sweep with request := none } s)
    if s.lines[n].state = .off ∧ s.inhibited = false then
      tellLsv n .probing (setLine n { s.lines[n] with state := .test } s)
    else continueSweep n (setResult n .skippedBusy s)
  else s

/-- The end of a probe at the expiry of its timer: the result by the sense condition, the line enters OFF, the view
becomes INACTIVE and is judged, and the sweep continues (R135). -/
def finishProbe (n : LineId) (s : State) : State :=
  let s := stopProbe s
  let s :=
    if s.loads[n].sense = .noLoad then latch n .openLoad (setResult n .openLoad s) else setResult n .pass s
  continueSweep n (judge n (setView n .inactive (endProbeAtLine n s)))

/-- PROBE_TIMER_EXPIRY (R135). A notice that the line gave before is taken first (R139, log 19). -/
def probeTimerExpiry (s : State) : State :=
  match s.sweep.current with
  | some n =>
    if probing s n then
      let s := takeAllLoadNotices n s
      if probing s n then
        if s.loads[n].sense = .overcurrent then probeOverload n s else finishProbe n s
      else s
    else s
  | none => s

/-- The LSV aborts the running sweep itself: the line being probed gets SKIPPED_BUSY and its probe ends (R136). -/
def abortByAssertion (s : State) : State :=
  match s.sweep.current with
  | some n =>
    let s := takeAllLoadNotices n s
    if s.sweep.running then
      let s :=
        if probing s n then
          judge n (setView n .inactive (endProbeAtLine n (stopProbe (setResult n .skippedBusy s))))
        else s
      abortSweep s
    else s
  | none => s

/-- ABORT_BY_INHIBIT (R136): the LSV takes an inhibit assertion as an event of its own. -/
def abortByInhibit (s : State) : State :=
  if s.transit.inhibitLsv then
    let s := setTransit { s.transit with inhibitLsv := false } s
    if s.sweep.running then abortByAssertion s else s
  else s

/-! ### The rows of this block -/

/-- Meaning of SENSE_EVENT. -/
def execSenseEvent (n : LineId) (c : SenseCond) (s : State) : Host.Outcome State Fault Refusal := .next (senseEvent n c s)

/-- Meaning of FORCING. -/
def execForcing (n : LineId) (s : State) : Host.Outcome State Fault Refusal := .next (takeForcing n s)

/-- Meaning of DRIVE_VIEW_NOTICE. -/
def execDriveViewNotice (n : LineId) (s : State) : Host.Outcome State Fault Refusal := .next (driveViewNotice n s)

/-- Meaning of BLANKING_EXPIRY. -/
def execBlankingExpiry (n : LineId) (s : State) : Host.Outcome State Fault Refusal := .next (blankingExpiry n s)

/-- Meaning of PERIOD_TIMER_EXPIRY. -/
def execPeriodTimerExpiry (s : State) : Host.Outcome State Fault Refusal := .next (periodTimerExpiry s)

/-- Meaning of PROBE_START. -/
def execProbeStart (n : LineId) (s : State) : Host.Outcome State Fault Refusal := .next (probeStart n s)

/-- Meaning of PROBE_TIMER_EXPIRY. -/
def execProbeTimerExpiry (s : State) : Host.Outcome State Fault Refusal := .next (probeTimerExpiry s)

/-- Meaning of ABANDONMENT. -/
def execAbandonment (n : LineId) (s : State) : Host.Outcome State Fault Refusal := .next (abandonment n s)

/-- Meaning of ABORT_BY_INHIBIT. -/
def execAbortByInhibit (s : State) : Host.Outcome State Fault Refusal := .next (abortByInhibit s)

end Sys2Proof.Machine
end

