-- ==== Sys2Proof/Machine/CueSchedule.lean ====
section
/-! DEFINITION. The Cue Schedule Unit: stamps, insertion, the evaluation event and its firing requests, removals at notices,
spawn requests, cancellation, flushing and rebasing (03, 04). -/

namespace Sys2Proof.Machine

/-! ### Records, stamps and order -/

/-- Remaining count of a record; 0 without repeat (R39). -/
def Cue.remaining (c : Cue) : Nat :=
  match c.repetition with
  | some r => r.remaining
  | none => 0

/-- A HOST cue with this id (R45). -/
def Cue.isHost (c : Cue) (id : BitVec 16) : Bool := c.key == .host id

/-- Insert a record behind every cue whose effective position is not ahead of its own, and before every cue
whose effective position is ahead of its own (R43). -/
def insertCue (t : Travel) (c : Cue) : List Cue → List Cue
  | [] => [c]
  | d :: ds => if isAhead t d.effective c.effective then c :: d :: ds else d :: insertCue t c ds

/-- Give the records of one schedule stamps from `n` on, in list order (R42). -/
def renumberFrom : Nat → List Cue → List Cue
  | _, [] => []
  | n, c :: cs => { c with stamp := n } :: renumberFrom (n + 1) cs

/-- Renumber the pending records of T0 to T3, and set the counter to their number (R42). -/
def renumber (s : State) : State :=
  let n1 := cueCount s 0
  let n2 := n1 + cueCount s 1
  let n3 := n2 + cueCount s 2
  setStamp (n3 + cueCount s 3)
    (setSchedule 3 (renumberFrom n3 s.csu.schedules[3])
      (setSchedule 2 (renumberFrom n2 s.csu.schedules[2])
        (setSchedule 1 (renumberFrom n1 s.csu.schedules[1])
          (setSchedule 0 (renumberFrom 0 s.csu.schedules[0]) s))))

/-- The state whose counter can give the next stamp: a counter at its last value renumbers first (R42). -/
def readyStamp (s : State) : State := if s.csu.stamp = Config.lastStamp then renumber s else s

/-- Insert a record into the schedule of track k under a new admission stamp (R42, R43). -/
def insertRecord (k : TrackId) (c : Cue) (s : State) : State :=
  let s := readyStamp s
  let c := { c with stamp := s.csu.stamp }
  setStamp (s.csu.stamp + 1)
    (setSchedule k (insertCue s.tracks[k].cfg.travel c s.csu.schedules[k]) s)

/-! ### Outcomes -/

/-- The overshoot o = s(x - e) (R65). -/
def overshoot (t : Travel) (x e : Int) : Int := t.sign * (x - e)

/-- The overshoot as a report carries it: unsigned 32-bit, saturating (R65). -/
def reportedOvershoot (o : Int) : Nat := (saturate 0 4294967295 o).toNat

/-- A notify level asks for a report of an outcome (R74). -/
def Notify.asks (n : Notify) (r : CueResult) : Bool :=
  match n with
  | .silent => false
  | .onFail => r != .fired
  | .always => true

/-- Raise a CUE_OUTCOME report if the notify level asks for one (R74). -/
def raiseOutcome (notify : Notify) (o : OutcomeReport) (s : State) : State :=
  if notify.asks o.result then raiseTrack o.track (.cueOutcome o) s else s

/-- The record of a repeating cue one pitch on (R70). -/
def advanceCue (t : Travel) (c : Cue) (r : CueRepeat) : Cue :=
  { c with nominal := c.nominal + t.sign * r.pitch, effective := c.effective + t.sign * r.pitch,
           repetition := some { r with remaining := r.remaining - 1 }, index := c.index + 1 }

/-- What becomes of a resolved record (R70). -/
inductive AfterResolution where
  | reinserted (c : Cue) (remaining : Nat)
  | rangeEnd (remaining : Nat)
  | freed
  deriving DecidableEq, Repr

/-- The repeat handling of a resolved record (R70). -/
def afterResolution (t : Travel) (c : Cue) : AfterResolution :=
  match c.repetition with
  | none => .freed
  | some r =>
    if r.remaining = 0 then .freed
    else if inRange (advanceCue t c r).nominal && inRange (advanceCue t c r).effective then
      .reinserted (advanceCue t c r) (r.remaining - 1)
    else .rangeEnd r.remaining

/-- The remaining count that the report of a resolution carries (R70, R74). -/
def AfterResolution.remaining : AfterResolution → Nat
  | .reinserted _ n => n
  | .rangeEnd n => n
  | .freed => 0

/-- Put a re-inserted record back; a freed record is simply no longer in a schedule (R70). -/
def applyResolution (k : TrackId) (a : AfterResolution) (s : State) : State :=
  match a with
  | .reinserted c _ => insertRecord k c s
  | .rangeEnd _ => s
  | .freed => s

/-- The report of a resolution (R74). -/
def resolutionReport (k : TrackId) (e : EvalInput) (c : Cue) (r : CueResult) (a : AfterResolution) : OutcomeReport where
  track := k
  key := c.key
  result := r
  line := c.line
  overshoot := reportedOvershoot (overshoot e.travel e.pos c.effective)
  index := c.index
  remaining := a.remaining
  pos := e.pos
  rangeEnd := match a with
    | .rangeEnd _ => true
    | _ => false

/-- Complete the resolution of the head `c` of schedule k, whose other cues are `rest`: it leaves the schedule, its
repeat is handled, and it is reported (R63, R70, R74). -/
def completeResolution (k : TrackId) (e : EvalInput) (c : Cue) (rest : List Cue) (r : CueResult) (s : State) : State :=
  let a := afterResolution e.travel c
  raiseOutcome c.notify (resolutionReport k e c r a) (applyResolution k a (setSchedule k rest s))

/-! ### The decision for a reached cue -/

/-- The profile used for a cue, and whether it is an override (R66). -/
def profileUsed (s : State) (c : Cue) : ProfileId × Bool :=
  match c.profile with
  | some i => (i, true)
  | none => (s.lines[c.line].cfg.profile, false)

/-- The overshoot of a cue exceeds its tolerance (R65). -/
def exceedsTolerance (e : EvalInput) (c : Cue) : Bool :=
  match c.tolerance with
  | some t => decide ((t : Int) < overshoot e.travel e.pos c.effective)
  | none => false

/-- The speed gate of a profile stops a cue (R66). -/
def tooSlow (e : EvalInput) (p : Profile) : Bool := decide (0 < p.minSpeed ∧ e.travel.sign * e.vel < p.minSpeed)

/-- Steps 1 to 4 of Table 4-2: an outcome, or none when the line is to be asked (R64). -/
def scheduleDecision (s : State) (e : EvalInput) (c : Cue) : Option CueResult :=
  if e.state = .settling then some .missed
  else if exceedsTolerance e c then some .late
  else if tooSlow e s.profiles[(profileUsed s c).1] then some .slow
  else if s.inhibited then some .inhibited
  else none

/-- The firing request of a cue that passes steps 1 to 4 (R68). -/
def requestFor (s : State) (c : Cue) : FiringRequest :=
  ⟨c.line, (profileUsed s c).1, (profileUsed s c).2, c.width⟩

/-- The loop of an evaluation event: resolve each reached head in turn, until the schedule is empty, its head lies
ahead, or a line is asked and the CSU waits for its answer (R62, R63, R71). `fuel` bounds the resolutions. -/
def resolveHeads : Nat → TrackId → EvalInput → State → State
  | 0, _, _, s => setEvaluation none s
  | fuel + 1, k, e, s =>
    match s.csu.schedules[k] with
    | [] => setEvaluation none s
    | c :: rest =>
      if reaches e.travel e.pos c.effective then
        match scheduleDecision s e c with
        | some r => resolveHeads fuel k e (completeResolution k e c rest r s)
        | none => setEvaluation (some ⟨k, e, requestFor s c⟩) s
      else setEvaluation none s

/-- A bound on the resolutions that a schedule can still see (R71). -/
def firingsLeft (cs : List Cue) : Nat := cs.foldl (fun n c => n + c.remaining + 1) 1

/-- Run the loop of the evaluation event of track k (R62). -/
def runEvaluation (k : TrackId) (e : EvalInput) (s : State) : State :=
  resolveHeads (firingsLeft s.csu.schedules[k]) k e s

/-- The line asked takes the outstanding firing request; its answer becomes the outcome of the head, and the
evaluation event goes on (R63, R68, R69). -/
def takeFiringRequest (s : State) : State :=
  match s.csu.evaluation with
  | some ⟨k, e, r⟩ =>
    match s.csu.schedules[k] with
    | c :: rest => runEvaluation k e (completeResolution k e c rest (answerFiring e r s).1 (answerFiring e r s).2)
    | [] => setEvaluation none s
  | none => s

/-- FIRING_REQUEST (R69): line n takes the firing request that names it. -/
def firingRequest (n : LineId) (s : State) : State :=
  match s.csu.evaluation with
  | some e => if e.request.line = n then takeFiringRequest s else s
  | none => s

/-- Take firing requests until no evaluation event is in progress. -/
def finishLoop : Nat → State → State
  | 0, s => s
  | fuel + 1, s => if s.csu.evaluation = none then s else finishLoop fuel (takeFiringRequest s)

/-- Complete the evaluation event in progress: the CSU takes no other event of a schedule before its end
(R62, log 3). -/
def finishEvaluation (s : State) : State :=
  match s.csu.evaluation with
  | some e => finishLoop (firingsLeft s.csu.schedules[e.track] + 1) s
  | none => s

/-! ### Notices of a track unit -/

/-- The CSU takes a position change of track k as an evaluation event (R62). A FROZEN schedule is not evaluated (R47). -/
def takeChange (k : TrackId) (e : EvalInput) (s : State) : State :=
  let s := setTaken k e.pos s
  match s.csu.modes[k] with
  | .evaluating => runEvaluation k e s
  | .frozen => s

/-- Report the removal of a cue whole, with the counts its record held (R72, R73). -/
def raiseRemoval (k : TrackId) (r : CueResult) (t : Travel) (x : Int) (s : State) (c : Cue) : State :=
  raiseOutcome c.notify
    { track := k, key := c.key, result := r, line := c.line,
      overshoot := if r = .passed then 0 else reportedOvershoot (overshoot t x c.effective),
      index := c.index, remaining := c.remaining, pos := x, rangeEnd := false } s

/-- Remove every cue of track k that `x` reaches, whole, and report each per its notify level, in list order (R72, R73). -/
def removeReached (k : TrackId) (r : CueResult) (x : Int) (s : State) : State :=
  let t := s.tracks[k].cfg.travel
  let cs := s.csu.schedules[k]
  (cs.filter fun c => reaches t x c.effective).foldl (raiseRemoval k r t x)
    (setSchedule k (cs.filter fun c => !reaches t x c.effective) s)

/-- The CSU takes a discontinuity notice (R72). -/
def takeDiscontinuity (k : TrackId) (x : Int) (s : State) : State := removeReached k .passed x (setTaken k x s)

/-- The CSU takes a resume notice: the removal as MISSED, then EVALUATING (R73). -/
def takeResume (k : TrackId) (x : Int) (s : State) : State :=
  setMode k .evaluating (removeReached k .missed x (setTaken k x s))

/-- The CSU takes a notice of track unit k. -/
def takeCsuNotice (k : TrackId) (s : State) (n : CsuNotice) : State :=
  match n with
  | .change e => takeChange k e s
  | .freeze => setMode k .frozen s
  | .resume x => takeResume k x s
  | .discontinuity x => takeDiscontinuity k x s

/-- The CSU takes every notice of track unit k still on its way, each event to its end (log 4). -/
def takeAllCsuNotices (k : TrackId) (s : State) : State :=
  let s := finishEvaluation s
  s.transit.toCsu[k].foldl (fun s n => finishEvaluation (takeCsuNotice k s n)) (putToCsu k [] s)

/-- EVALUATION_EVENT (R62). -/
def evaluationEvent (k : TrackId) (s : State) : State :=
  match s.transit.toCsu[k] with
  | .change e :: rest => takeChange k e (putToCsu k rest (finishEvaluation s))
  | _ => s

/-- DISCONTINUITY_NOTICE (R72). -/
def discontinuityNotice (k : TrackId) (s : State) : State :=
  match s.transit.toCsu[k] with
  | .discontinuity x :: rest => takeDiscontinuity k x (putToCsu k rest (finishEvaluation s))
  | _ => s

/-- RESUME_NOTICE (R73). -/
def resumeNotice (k : TrackId) (s : State) : State :=
  match s.transit.toCsu[k] with
  | .resume x :: rest => takeResume k x (putToCsu k rest (finishEvaluation s))
  | _ => s

/-- FREEZE_NOTICE (R47). -/
def freezeNotice (k : TrackId) (s : State) : State :=
  match s.transit.toCsu[k] with
  | .freeze :: rest => setMode k .frozen (putToCsu k rest (finishEvaluation s))
  | _ => s

/-! ### Admission -/

/-- The track state in which the ahead check of admission is made (R50, R53): the one the track unit holds now, while a freeze or
resume notice is still on its way to the CSU too (R51, R54): DEDUCED, log 32. -/
def checksAhead (s : State) (k : TrackId) : Bool :=
  s.tracks[k].state == .settling || s.tracks[k].state == .running

/-- The track position as the CSU last took it reaches an effective position (R50, step 7). -/
def alreadyReached (s : State) (k : TrackId) (e : Int) : Bool :=
  reaches s.tracks[k].cfg.travel s.csu.taken[k] e

/-- The effective position of a nominal position on a line: the line offset in travel sense (R50, R52). -/
def effectiveOf (s : State) (k : TrackId) (n : LineId) (nominal : Int) : Int :=
  nominal + s.tracks[k].cfg.travel.sign * s.lines[n].cfg.offset

/-- The nominal position of a spawn request (R52). -/
def spawnNominal (s : State) (k : TrackId) (r : Spawn) : Int :=
  r.pos + s.tracks[k].cfg.travel.sign * r.template.offset

/-- The cue of a spawn request (R52, R53). -/
def spawnCue (s : State) (k : TrackId) (r : Spawn) : Cue where
  key := .mark r.entry r.seq
  line := r.template.line
  nominal := spawnNominal s k r
  effective := effectiveOf s k r.template.line (spawnNominal s k r)
  profile := r.template.profile
  width := r.template.width
  tolerance := r.template.tolerance
  repetition := none
  index := 0
  notify := r.template.notify
  stamp := 0

/-- The CSU's judgement of a spawn request (R53). -/
inductive SpawnJudgement where
  | failed (reason : Status)
  | missed
  | inserted
  deriving DecidableEq, Repr

/-- The checks of R53, in their order. -/
def judgeSpawn (s : State) (k : TrackId) (r : Spawn) : SpawnJudgement :=
  if s.tracks[k].state = .disabled then .failed .trackDisabled
  else if s.lines[r.template.line].cfg.track ≠ k then .failed .wrongTrack
  else if !(inRange (spawnCue s k r).nominal && inRange (spawnCue s k r).effective) then .failed .outOfRange
  else if checksAhead s k && alreadyReached s k (spawnCue s k r).effective then .missed
  else if freeCount s = 0 then .failed .poolFull
  else if s.tracks[k].cfg.scheduleLimit ≤ cueCount s k then .failed .trackFull
  else .inserted

/-- The outcome report of a spawn reached at admission (R53, step 4). -/
def spawnMissedReport (s : State) (k : TrackId) (r : Spawn) : OutcomeReport where
  track := k
  key := .mark r.entry r.seq
  result := .missed
  line := r.template.line
  overshoot := reportedOvershoot
    (overshoot s.tracks[k].cfg.travel s.csu.taken[k] (spawnCue s k r).effective)
  index := 0
  remaining := 0
  pos := s.csu.taken[k]
  rangeEnd := false

/-- The CSU takes a spawn request (R53). -/
def takeSpawn (k : TrackId) (r : Spawn) (s : State) : State :=
  match judgeSpawn s k r with
  | .failed reason => raiseTrack k (.spawnFailed k r.entry r.seq reason) s
  | .missed => raiseOutcome r.template.notify (spawnMissedReport s k r) s
  | .inserted => insertRecord k (spawnCue s k r) s

/-- SPAWN_REQUEST (R53): the CSU takes the next spawn request of MUk. -/
def spawnRequest (k : TrackId) (s : State) : State :=
  match s.transit.spawns[k] with
  | r :: rest => takeSpawn k r (putSpawns k rest (finishEvaluation s))
  | [] => s

/-! ### Bulk removal and rebasing -/

/-- Keep the cues of track k that `keep` accepts, without a report per cue (R57). -/
def bulkRemove (k : TrackId) (keep : Cue → Bool) (s : State) : State :=
  setSchedule k (s.csu.schedules[k].filter keep) s

/-- The number of cues a bulk removal takes out (R57). -/
def bulkCount (k : TrackId) (keep : Cue → Bool) (s : State) : Nat :=
  (s.csu.schedules[k].filter fun c => !keep c).length

/-- The CSU takes a FLUSH loss policy notice of a track (R57, R166). -/
def flushTrackLoss (k : TrackId) (s : State) : State :=
  raiseTrack k (.scheduleFlushed k none (cueCount s k)) (bulkRemove k (fun _ => false) s)

/-- The cues that a line's bulk removal keeps (R57). -/
def otherLineThan (n : LineId) (c : Cue) : Bool := c.line != n

/-- The CSU takes a FLUSH loss policy notice of a line: the cues that name it stand in the schedule of its
assigned track; a report is raised when there is one (R57, R166). -/
def flushLineLoss (n : LineId) (s : State) : State :=
  let k := s.lines[n].cfg.track
  if bulkCount k (otherLineThan n) s = 0 then s
  else
    raiseTrack k (.scheduleFlushed k (some n) (bulkCount k (otherLineThan n) s))
      (bulkRemove k (otherLineThan n) s)

/-- FLUSH_LOSS_POLICY (R166): the CSU takes its oldest loss policy notice. -/
def flushLossPolicy (s : State) : State :=
  match s.transit.csuLoss with
  | n :: rest =>
    let s := finishEvaluation (setTransit { s.transit with csuLoss := rest } s)
    match n with
    | .track k => flushTrackLoss k s
    | .line n => flushLineLoss n s
  | [] => s

/-- A cue shifted by a REBASE (R58). -/
def shiftCue (d : Int) (c : Cue) : Cue := { c with nominal := c.nominal + d, effective := c.effective + d }

/-! ### The rows of this block -/

/-- Meaning of EVALUATION_EVENT. -/
def execEvaluationEvent (k : TrackId) (s : State) : Host.Outcome State Fault Refusal := .next (evaluationEvent k s)

/-- Meaning of FIRING_REQUEST. -/
def execFiringRequest (n : LineId) (s : State) : Host.Outcome State Fault Refusal := .next (firingRequest n s)

/-- Meaning of DISCONTINUITY_NOTICE. -/
def execDiscontinuityNotice (k : TrackId) (s : State) : Host.Outcome State Fault Refusal := .next (discontinuityNotice k s)

/-- Meaning of RESUME_NOTICE. -/
def execResumeNotice (k : TrackId) (s : State) : Host.Outcome State Fault Refusal := .next (resumeNotice k s)

/-- Meaning of FREEZE_NOTICE. -/
def execFreezeNotice (k : TrackId) (s : State) : Host.Outcome State Fault Refusal := .next (freezeNotice k s)

/-- Meaning of SPAWN_REQUEST. -/
def execSpawnRequest (k : TrackId) (s : State) : Host.Outcome State Fault Refusal := .next (spawnRequest k s)

/-- Meaning of FLUSH_LOSS_POLICY. -/
def execFlushLossPolicy (s : State) : Host.Outcome State Fault Refusal := .next (flushLossPolicy s)

end Sys2Proof.Machine
end

