-- ==== Sys2Proof/Machine/MarkUnit.lean ====
section
/-! DEFINITION. The mark units: capture, early check, blanking, the missing-mark watch, substitution, loss and the mark
program (05). -/

namespace Sys2Proof.Machine

/-- The distance from the last mark to `x` in travel sense, s(x - last) (R84, R88). -/
def fromLast (s : State) (k : TrackId) (x : Int) : Int := s.tracks[k].cfg.travel.sign * (x - s.marks[k].last)

/-- Hand the CSU one spawn request for each enabled template entry, in index order (R95). -/
def spawnProgram (k : TrackId) (pos : Int) (seq : BitVec 16) (s : State) : State :=
  allEntries.foldl
    (fun t e => if s.marks[k].program[e].enabled then tellSpawn k ⟨e, seq, pos, s.marks[k].program[e]⟩ t else t) s

/-- The track is SETTLING or RUNNING. -/
def isTracking (s : State) (k : TrackId) : Bool :=
  s.tracks[k].state == .settling || s.tracks[k].state == .running

/-- MUk counts its track as SETTLING or RUNNING: it is, or it has entered FAULT and MUk has not yet taken the notice, and what MUk
takes before that notice happened before the fault (R83, R88, R99). -/
def markTracking (s : State) (k : TrackId) : Bool := isTracking s k || s.transit.toMark[k].contains .fault

/-- An ignored edge counts in the statistic of the track (R83). -/
def ignoreEdge (k : TrackId) (s : State) : State :=
  setTrack k { s.tracks[k] with stats := { s.tracks[k].stats with
    ignoredMarks := countUp s.tracks[k].stats.ignoredMarks } } s

/-- The report of a capture at `x` (R86). -/
def captureReport (s : State) (k : TrackId) (x : Int) : MarkReport where
  track := k
  seq := s.marks[k].seq + 1
  pos := x
  vel := s.tracks[k].vel
  pitch := if s.marks[k].valid then some (saturate32 (fromLast s k x)) else none
  substituted := false
  afterLoss := s.marks[k].state == .lost

/-- The mark unit after a capture at `x` (R85). -/
def capturedMark (m : Mark) (x : Int) : Mark :=
  { m with seq := m.seq + 1, last := x, valid := true, substitutions := 0, loss := .absent,
           state := if m.cfg.blank = 0 then .armed else .blanked }

/-- A capture of a mark edge at `x` (R85): the unit, its MARK report while reports are ON, and the spawn requests. -/
def capture (k : TrackId) (x : Int) (s : State) : State :=
  let r := captureReport s k x
  let s := setMark k (capturedMark s.marks[k] x) s
  let s := if s.marks[k].cfg.reports then raiseTrack k (.mark r) s else s
  spawnProgram k x r.seq s

/-- The early check rejects an edge whose measured pitch is below P - T (R84). -/
def isEarly (s : State) (k : TrackId) (x : Int) : Bool :=
  s.marks[k].cfg.pitch != 0 && s.marks[k].valid &&
    decide (fromLast s k x < (s.marks[k].cfg.pitch : Int) - s.marks[k].cfg.tolerance)

/-- An edge taken in ARMED: early check, then capture or rejection (R83, R84). -/
def armedEdge (k : TrackId) (x : Int) (s : State) : State :=
  if isEarly s k x then raiseTrack k (.markRejected k x (saturate32 (fromLast s k x))) s else capture k x s

/-- MARK_EDGE (R81, R83): a filtered transition of the selected kind is ignored, rejected or captured at the position
the track unit holds. -/
def markEdge (k : TrackId) (edge : MarkEdge) (s : State) : State :=
  if edge = s.marks[k].cfg.edge then
    match s.marks[k].state with
    | .off => s
    | .blanked => ignoreEdge k s
    | .armed => if markTracking s k then armedEdge k s.tracks[k].pos s else ignoreEdge k s
    | .lost => if markTracking s k then capture k s.tracks[k].pos s else ignoreEdge k s
  else s

/-! ### Position changes -/

/-- The end of blanking at a position change (R87). -/
def endBlanking (k : TrackId) (x : Int) (s : State) : State :=
  if s.marks[k].state = .blanked ∧ (s.marks[k].cfg.blank : Int) ≤ fromLast s k x then
    setMark k { s.marks[k] with state := .armed } s
  else s

/-- The missing-mark watch is active (R88). -/
def watchActive (s : State) (k : TrackId) : Bool :=
  (s.marks[k].state == .armed || s.marks[k].state == .blanked) && s.marks[k].cfg.pitch != 0 && s.marks[k].valid &&
    markTracking s k

/-- The position reaches the watch point last + s(P + T) (R88). -/
def isMissing (s : State) (k : TrackId) (x : Int) : Bool :=
  watchActive s k && decide ((s.marks[k].cfg.pitch : Int) + s.marks[k].cfg.tolerance ≤ fromLast s k x)

/-- The substitute position last + sP (R89). -/
def substitutePos (s : State) (k : TrackId) : Int :=
  s.marks[k].last + s.tracks[k].cfg.travel.sign * s.marks[k].cfg.pitch

/-- The report of a substitution (R86, R89). -/
def substituteReport (s : State) (k : TrackId) : MarkReport where
  track := k
  seq := s.marks[k].seq + 1
  pos := substitutePos s k
  vel := s.tracks[k].vel
  pitch := some s.marks[k].cfg.pitch
  substituted := true
  afterLoss := false

/-- The mark unit after a substitution, with the present position `x` (R89). -/
def substitutedMark (s : State) (k : TrackId) (x : Int) : Mark :=
  { s.marks[k] with
    seq := s.marks[k].seq + 1
    last := substitutePos s k
    substitutions := s.marks[k].substitutions + 1
    state := if s.tracks[k].cfg.travel.sign * (x - substitutePos s k) < s.marks[k].cfg.blank then .blanked else .armed }

/-- A substitution (R89). -/
def substitute (k : TrackId) (x : Int) (s : State) : State :=
  let r := substituteReport s k
  spawnProgram k r.pos r.seq (raiseTrack k (.mark r) (setMark k (substitutedMark s k x) s))

/-- Enter LOST with a cause: the last mark becomes INVALID and MARK_LOST is raised (R90, R92). -/
def loseMark (k : TrackId) (cause : LossCause) (s : State) : State :=
  raiseTrack k (.markLost k cause) (setMark k { s.marks[k] with state := .lost, loss := cause, valid := false } s)

/-- The watch loop of one position change: each missing mark is substituted below the limit, and is a loss at
it (R88, R91). `fuel` bounds the substitutions, of which the limit allows at most 15. -/
def watchLoop : Nat → TrackId → Int → State → State
  | 0, _, _, s => s
  | fuel + 1, k, x, s =>
    if isMissing s k x then
      if s.marks[k].substitutions < s.marks[k].cfg.limit then watchLoop fuel k x (substitute k x s)
      else loseMark k .missing s
    else s

/-- MUk takes a position change: the end of blanking, then the missing-mark watch (R91). -/
def takeMarkChange (k : TrackId) (x : Int) (s : State) : State :=
  let s := endBlanking k x s
  watchLoop (s.marks[k].cfg.limit + 1) k x s

/-- MUk takes a fault entry or discontinuity notice: ARMED or BLANKED goes to LOST (R92). -/
def takeMarkLoss (k : TrackId) (cause : LossCause) (s : State) : State :=
  match s.marks[k].state with
  | .armed => loseMark k cause s
  | .blanked => loseMark k cause s
  | .lost => s
  | .off => s

/-- MUk takes a notice of its track unit. -/
def takeMarkNotice (k : TrackId) (s : State) (n : MarkNotice) : State :=
  match n with
  | .change x => takeMarkChange k x s
  | .fault => takeMarkLoss k .trackFault s
  | .discontinuity => takeMarkLoss k .discontinuity s

/-- MUk takes notices of its track unit one after another, each with those behind it still on their way. -/
def takeMarkNotices (k : TrackId) : List MarkNotice → State → State
  | [], s => s
  | n :: rest, s => takeMarkNotices k rest (takeMarkNotice k (putToMark k rest s) n)

/-- MUk takes every notice of its track unit still on its way, in order (log 4). -/
def takeAllMarkNotices (k : TrackId) (s : State) : State := takeMarkNotices k s.transit.toMark[k] s

/-- MARK_POSITION_CHANGE (R91). -/
def markPositionChange (k : TrackId) (s : State) : State :=
  match s.transit.toMark[k] with
  | .change x :: rest => takeMarkChange k x (putToMark k rest s)
  | _ => s

/-- MARK_FAULT_NOTICE (R92). -/
def markFaultNotice (k : TrackId) (s : State) : State :=
  match s.transit.toMark[k] with
  | .fault :: rest => takeMarkLoss k .trackFault (putToMark k rest s)
  | _ => s

/-- MARK_DISCONTINUITY_NOTICE (R92). -/
def markDiscontinuityNotice (k : TrackId) (s : State) : State :=
  match s.transit.toMark[k] with
  | .discontinuity :: rest => takeMarkLoss k .discontinuity (putToMark k rest s)
  | _ => s

/-- The unit enters OFF and its last mark becomes INVALID (R82, R93). -/
def markOff (k : TrackId) (s : State) : State :=
  setMark k { s.marks[k] with state := .off, valid := false } s

/-- MARK_UNIT_OFF_NOTICE (R93, R166): MUk takes one notice of a track FLUSH loss policy. -/
def markUnitOffNotice (k : TrackId) (s : State) : State :=
  if s.transit.markLoss[k] = 0 then s
  else markOff k (setTransit { s.transit with markLoss := s.transit.markLoss.set k (s.transit.markLoss[k] - 1) } s)

/-! ### The rows of this block -/

/-- Meaning of MARK_EDGE. -/
def execMarkEdge (k : TrackId) (edge : MarkEdge) (s : State) : Host.Outcome State Fault Refusal := .next (markEdge k edge s)

/-- Meaning of MARK_POSITION_CHANGE. -/
def execMarkPositionChange (k : TrackId) (s : State) : Host.Outcome State Fault Refusal := .next (markPositionChange k s)

/-- Meaning of MARK_FAULT_NOTICE. -/
def execMarkFaultNotice (k : TrackId) (s : State) : Host.Outcome State Fault Refusal := .next (markFaultNotice k s)

/-- Meaning of MARK_DISCONTINUITY_NOTICE. -/
def execMarkDiscontinuityNotice (k : TrackId) (s : State) : Host.Outcome State Fault Refusal :=
  .next (markDiscontinuityNotice k s)

/-- Meaning of MARK_UNIT_OFF_NOTICE. -/
def execMarkUnitOffNotice (k : TrackId) (s : State) : Host.Outcome State Fault Refusal := .next (markUnitOffNotice k s)

end Sys2Proof.Machine
end

