-- ==== Sys2Proof/Machine/TrackUnit.lean ====
section
/-! DEFINITION. The track units and their sources: position changes and their offering, source errors, faults, settling,
discontinuities, rebasing, velocity, and the decoding of the three sources (01, 02). -/

namespace Sys2Proof.Machine

/-! ### Offering and notices (R3, Table 1-4) -/

/-- The track is enabled: SETTLING, RUNNING or FAULT (Table 1-1). -/
def isEnabled (s : State) (k : TrackId) : Bool := s.tracks[k].state != .disabled

/-- Hand a notice to every line assigned to track k whose active pulse is in DISTANCE mode at this moment (R3, R11, R14, R15). A
DISTANCE pulse that begins later, by an evaluation event offered before, is not told, of a position change, a fault entry or a
discontinuity alike: DEDUCED, log 17. -/
def tellDistanceLines (k : TrackId) (m : LineNotice) (s : State) : State :=
  allLines.foldl (fun t n => if hasDistancePulse s.lines[n] k then tellLine n m t else t) s

/-- Offer a position change to the CSU, to MUk and to the lines with a DISTANCE pulse on track k (R3). -/
def offerChange (k : TrackId) (s : State) : State :=
  let t := s.tracks[k]
  tellDistanceLines k (.change k t.pos)
    (tellMark k (.change t.pos) (tellCsu k (.change ⟨t.pos, t.cfg.travel, t.state, t.vel⟩) s))

/-! ### Faults and settling -/

/-- The track unit in FAULT with a cause; home arming and the rest are kept (R11, step 1). -/
def faultedTrack (t : Track) (cause : TrackCause) : Track :=
  { t with state := .fault, cause := cause, settleTimer := none }

/-- Enter FAULT from SETTLING or RUNNING (R11). -/
def enterFault (k : TrackId) (cause : TrackCause) (s : State) : State :=
  let s := setTrack k (faultedTrack s.tracks[k] cause) s
  let s := raiseTrack k (.trackState k .fault cause) s
  tellDistanceLines k (.truncate k .track) (tellMark k .fault (tellCsu k .freeze s))

/-- Enter or restart SETTLING; with a settle time of 0, enter or stay in RUNNING (R8). -/
def startSettle (s : State) (t : Track) : Track :=
  if t.cfg.settleTime = 0 then { t with state := .running, settleTimer := none }
  else { t with state := .settling, settleTimer := some (afterMs s t.cfg.settleTime) }

/-- The settle timer expires: the track enters RUNNING and reports it (R8). -/
def finishSettle (k : TrackId) (s : State) : State :=
  raiseTrack k (.trackState k .running .settled)
    (setTrack k { s.tracks[k] with state := .running, settleTimer := none } s)

/-- The effect of a source error on the state of the track, `reached` saying whether its count has reached the
error limit (R8, R9). -/
def judgeSourceError (k : TrackId) (cause : TrackCause) (reached : Bool) (s : State) : State :=
  match s.tracks[k].state with
  | .disabled => s
  | .fault => s
  | .running => if reached then enterFault k cause s else s
  | .settling =>
    if reached then enterFault k cause s
    else if s.tracks[k].cfg.settleTime = 0 then finishSettle k s
    else setTrack k (startSettle s s.tracks[k]) s

/-! ### Position changes -/

/-- A position change of `d` counts: moved, or clamped at a range limit that is recorded (R1, R10). -/
def movedTrack (t : Track) (d : Int) : Track :=
  if Config.maxPos < t.pos + d then { t with pos := Config.maxPos, clamp := some .high }
  else if t.pos + d < Config.minPos then { t with pos := Config.minPos, clamp := some .low }
  else { t with pos := t.pos + d }

/-- A position change of `d` counts from the source; zero counts are no change (R1, R3, R10, R23). -/
def applyChange (k : TrackId) (d : Int) (s : State) : State :=
  if d = 0 then s
  else
    let fits := inRange (s.tracks[k].pos + d)
    let s := setTrack k (movedTrack s.tracks[k] d) s
    if isTracking s k then
      if fits then offerChange k s else enterFault k .range s
    else s

/-- The count sense applied to a change that a source derives from its pins (R2). -/
def sensed (c : CountSense) (d : Int) : Int :=
  match c with
  | .normal => d
  | .inverted => -d

/-! ### Velocity -/

/-- Start a velocity window at the present position with the configured length (R19). -/
def windowFrom (t : Track) : Option Window := some ⟨t.pos, t.cfg.window⟩

/-- The velocity of a window that ends at `x` (R19). -/
def windowVelocity (w : Window) (x : Int) : Int := saturate32 (((x - w.start) * 1000).tdiv w.length)

/-- The track unit after a window end: last velocity, illegal counts, next window (R19). -/
def rolledTrack (t : Track) (w : Window) : Track :=
  { t with vel := windowVelocity w t.pos, lastIllegal := t.windowIllegal, windowIllegal := 0, window := windowFrom t }

/-- The magnitude of the last velocity is above a nonzero overspeed limit (R20). -/
def isOverspeed (t : Track) : Bool := t.cfg.overspeed != 0 && decide (t.cfg.overspeed < t.vel.natAbs)

/-- WINDOW_END (R19, R20). -/
def windowEnd (k : TrackId) (s : State) : State :=
  match s.tracks[k].window with
  | some w =>
    let s := setTrack k (rolledTrack s.tracks[k] w) s
    if isTracking s k && isOverspeed s.tracks[k] then enterFault k .overspeed s else s
  | none => s

/-- SETTLE_EXPIRY (R8). -/
def settleExpiry (k : TrackId) (s : State) : State :=
  if s.tracks[k].state = .settling then finishSettle k s else s

/-! ### Quadrature source -/

/-- An entry of Table 2-2. -/
inductive QuadStep where
  | unchanged
  | up
  | down
  | illegal
  deriving DecidableEq, Repr

/-- Place of a phase pair in the up-counting cycle LL, HL, HH, LH of Table 2-2. -/
def phasePlace (p : PhasePair) : BitVec 2 :=
  match p.a, p.b with
  | false, false => 0
  | true, false => 1
  | true, true => 2
  | false, true => 3

/-- Table 2-2: the entry for a reference and an observed pair, with count sense NORMAL (R25). -/
def quadStep (reference observed : PhasePair) : QuadStep :=
  if observed = reference then .unchanged
  else if phasePlace observed = phasePlace reference + 1 then .up
  else if phasePlace observed = phasePlace reference - 1 then .down
  else .illegal

/-- An illegal transition: both counts advance and the error limit applies (R26). -/
def illegalTransition (k : TrackId) (s : State) : State :=
  let t := s.tracks[k]
  let t : Track := { t with windowIllegal := countUp t.windowIllegal,
                            stats := { t.stats with illegal := countUp t.stats.illegal } }
  judgeSourceError k .quad (decide (t.cfg.errorLimit ≤ t.windowIllegal)) (setTrack k t s)

/-- The effect of an entry of Table 2-2 on the track (R25, R26). -/
def applyQuadStep (k : TrackId) (q : QuadStep) (s : State) : State :=
  match q with
  | .unchanged => s
  | .up => applyChange k (sensed s.tracks[k].cfg.sense 1) s
  | .down => applyChange k (sensed s.tracks[k].cfg.sense (-1)) s
  | .illegal => illegalTransition k s

/-- The phase inputs of track k present a pair. -/
def setPhasePin (k : TrackId) (p : PhasePair) (s : State) : State :=
  { s with pins := { s.pins with phase := s.pins.phase.set k p } }

/-- The decoder observes a pair: it becomes the new reference, and its entry is applied (R25). -/
def decodePhase (k : TrackId) (p : PhasePair) (s : State) : State :=
  match s.tracks[k].reference with
  | some r => applyQuadStep k (quadStep r p) (setTrack k { s.tracks[k] with reference := some p } s)
  | none => setTrack k { s.tracks[k] with reference := some p } s

/-- PHASE_CHANGE (R25): the phase pair is decoded while the track is enabled with source QUAD (R24, R27). -/
def phaseChange (k : TrackId) (a b : Bool) (s : State) : State :=
  let s := setPhasePin k ⟨a, b⟩ s
  if isEnabled s k && s.tracks[k].cfg.source == .quad then decodePhase k ⟨a, b⟩ s else s

/-! ### Discontinuities -/

/-- The effects of a PRESET to `x` by the state of the track (R15). -/
def presetEffects (k : TrackId) (x : Int) (s : State) : State :=
  let t : Track := { s.tracks[k] with pos := x }
  match t.state with
  | .disabled => setTrack k t s
  | .fault => setTrack k { t with window := windowFrom t } s
  | _ =>
    let s := setTrack k (startSettle s { t with window := windowFrom t }) s
    tellMark k .discontinuity (tellDistanceLines k (.truncate k .discontinuity) (tellCsu k (.discontinuity x) s))

/-- A HOME capture: the armed value, HOMED, the effects of a PRESET, and TRACK_STATE if the state changed (R17). -/
def homeCapture (k : TrackId) (s : State) : State :=
  let before := s.tracks[k].state
  let x := s.tracks[k].homeValue
  let s := raiseTrack k (.homed k x) (setTrack k { s.tracks[k] with pos := x, homeArmed := false } s)
  let s := presetEffects k x s
  if s.tracks[k].state = before then s else raiseTrack k (.trackState k s.tracks[k].state .discontinuity) s

/-- INDEX_EDGE (R28): a rising edge on TZk is a HOME capture while the track is enabled with source QUAD and home
is armed. -/
def indexEdge (k : TrackId) (s : State) : State :=
  if isEnabled s k && s.tracks[k].cfg.source == .quad && s.tracks[k].homeArmed then homeCapture k s else s

/-! ### Sampled source -/

/-- SAMPLE_TIMER_EXPIRY (R29): a transfer starts, and the next sample period. -/
def sampleTimerExpiry (k : TrackId) (s : State) : State :=
  match s.tracks[k].sampleTimer with
  | some _ =>
    setTrack k { s.tracks[k] with transfer := true, sampleTimer := some (afterUs s s.tracks[k].cfg.samplePeriod) } s
  | none => s

/-- Why a sample is rejected (R30, R32). -/
inductive Rejection where
  | noStart
  | badStop
  | parity
  | jump
  deriving DecidableEq, Repr

/-- The raw value: the W data bits of the transfer (R30). -/
def rawValue (w : Nat) (raw : BitVec 32) : Nat := raw.toNat % 2 ^ w

/-- The number of 1s among the low `n` bits of a value. -/
def onesBelow : Nat → Nat → Nat
  | 0, _ => 0
  | n + 1, v => v % 2 + onesBelow n (v / 2)

/-- The framing checks of a transfer, in their order (R30). -/
def judgeFraming (w : Nat) (start : Bool) (raw : BitVec 32) (parity stop : Bool) : Option Rejection :=
  if start = false then some .noStart
  else if stop = true then some .badStop
  else if (onesBelow w raw.toNat + parity.toNat) % 2 = 1 then some .parity
  else none

/-- The statistics with the one for a reason incremented (R9, R30, R32). -/
def countRejection (x : TrackStats) : Rejection → TrackStats
  | .noStart => { x with noStart := countUp x.noStart }
  | .badStop => { x with badStop := countUp x.badStop }
  | .parity => { x with parity := countUp x.parity }
  | .jump => { x with jump := countUp x.jump }

/-- The track unit after a rejected sample; a framing failure sets the latest-framing flag to FAILED, a JUMP
leaves it VALID (R30, R32). -/
def rejectedTrack (t : Track) (reason : Rejection) : Track :=
  { t with rejects := countUp t.rejects, stats := countRejection t.stats reason, framingValid := reason == .jump }

/-- A rejected sample is a source error (R9, R30, R32). -/
def rejectSample (k : TrackId) (reason : Rejection) (s : State) : State :=
  let t := rejectedTrack s.tracks[k] reason
  judgeSourceError k .sample (decide (t.cfg.errorLimit ≤ t.rejects)) (setTrack k t s)

/-- The short way from one raw value to the next on the circle of W bits (R32). -/
def unwrapDelta (w prev r : Nat) : Int :=
  let d := ((r : Int) - prev) % (2 ^ w : Nat)
  if d < (2 ^ (w - 1) : Nat) then d else d - (2 ^ w : Nat)

/-- The track unit after an accepted or acquired sample (R31, R32, R33). -/
def acceptedTrack (t : Track) (r : Nat) : Track := { t with rPrev := some r, rejects := 0, framingValid := true }

/-- A framing-valid sample: acquired, unwrapped and rejected with JUMP, or unwrapped and accepted (R31, R32, R33). -/
def takeSample (k : TrackId) (r : Nat) (s : State) : State :=
  let t := s.tracks[k]
  match t.rPrev with
  | none => setTrack k (acceptedTrack t r) s
  | some prev =>
    let d := unwrapDelta t.cfg.sampleWidth prev r
    if t.state ≠ .fault ∧ t.cfg.jumpLimit < d.natAbs then rejectSample k .jump s
    else applyChange k (sensed t.cfg.sense d) (setTrack k (acceptedTrack t r) s)

/-- TRANSFER_COMPLETION (R29, R30): the transfer in progress completes with the bits read. -/
def transferCompletion (k : TrackId) (start : Bool) (raw : BitVec 32) (parity stop : Bool) (s : State) : State :=
  if s.tracks[k].transfer then
    let s := setTrack k { s.tracks[k] with transfer := false } s
    match judgeFraming s.tracks[k].cfg.sampleWidth start raw parity stop with
    | some reason => rejectSample k reason s
    | none => takeSample k (rawValue s.tracks[k].cfg.sampleWidth raw) s
  else s

/-! ### Simulation source -/

/-- UPDATE_INTERVAL_EXPIRY (R34): the simulation velocity enters the remainder, and whole counts are delivered. -/
def updateIntervalExpiry (k : TrackId) (s : State) : State :=
  match s.tracks[k].updateTimer with
  | some _ =>
    let t := s.tracks[k]
    let sum := t.remainder + t.simVel
    let n := sum.tdiv 100000
    applyChange k n
      (setTrack k { t with remainder := sum - n * 100000, updateTimer := some (afterUs s Config.updateInterval) } s)
  | none => s

/-! ### Effects of the commands of a track -/

/-- The track unit as an accepted ENABLE_TRACK leaves it (R7, R27, R29, R34, R38). -/
def enabledTrack (s : State) (k : TrackId) : Track :=
  let t := s.tracks[k]
  startSettle s
    { t with
      vel := 0, window := windowFrom t, rejects := 0, windowIllegal := 0, lastIllegal := 0, framingValid := true
      reference := if t.cfg.source = .quad then some s.pins.phase[k] else t.reference
      sampleTimer := if t.cfg.source = .sampled then some (afterUs s t.cfg.samplePeriod) else t.sampleTimer
      updateTimer := if t.cfg.source = .sim then some (afterUs s Config.updateInterval) else t.updateTimer
      remainder := if t.cfg.source = .sim then 0 else t.remainder }

/-- The effects of an accepted ENABLE_TRACK (R7, R47). -/
def enableTrackUnit (k : TrackId) (s : State) : State :=
  setTaken k s.tracks[k].pos (setMode k .evaluating (setTrack k (enabledTrack s k) s))

/-- The track unit as an accepted DISABLE_TRACK leaves it (R10, R14, R27, R29, R31, R34). -/
def disabledTrack (t : Track) : Track :=
  { t with
    state := .disabled, cause := .absent, clamp := none, settleTimer := none, window := none, vel := 0
    homeArmed := false, reference := none, sampleTimer := none, transfer := false, rPrev := none
    updateTimer := none, remainder := 0 }

/-- The CSU and MUk take what track unit k told them before (log 4). -/
def settleNotices (k : TrackId) (s : State) : State := takeAllMarkNotices k (takeAllCsuNotices k s)

/-- The effects of an accepted DISABLE_TRACK on the settled state (R14). -/
def disableTrackUnit (k : TrackId) (s : State) : State :=
  let s := markOff k (bulkRemove k (fun _ => false) s)
  let s := tellDistanceLines k (.truncate k .track) s
  setTrack k (disabledTrack s.tracks[k]) s

/-- The persistence condition of a fault cause (Table 1-3). -/
def persists (t : Track) : Bool :=
  match t.cause with
  | .sample => !t.framingValid
  | .quad => decide (t.cfg.errorLimit ≤ t.lastIllegal)
  | .range => match t.clamp with
    | some limit => t.pos == limit.pos
    | none => false
  | .overspeed => isOverspeed t
  | .absent => false
  | .settled => false
  | .discontinuity => false

/-- The track unit as an accepted CLEAR_TRACK_FAULT leaves it in FAULT (R10, R13). -/
def clearedTrack (s : State) (t : Track) : Track :=
  startSettle s { t with cause := .absent, rejects := 0, windowIllegal := 0, clamp := none }

/-- The effects of an accepted CLEAR_TRACK_FAULT in FAULT (R13). -/
def clearTrackFaultUnit (k : TrackId) (s : State) : State :=
  tellCsu k (.resume s.tracks[k].pos) (setTrack k (clearedTrack s s.tracks[k]) s)

/-- Line n takes every notice of its track unit still on its way, in order (log 4). -/
def takeAllLineNotices (n : LineId) (s : State) : State :=
  s.transit.toLine[n].foldl (fun s m => takeLineNotice n m s) (putToLine n [] s)

/-- The CSU, MUk and the lines assigned to track k take what track unit k told them before (log 4). -/
def settleAllNotices (k : TrackId) (s : State) : State :=
  allLines.foldl (fun s n => if s.lines[n].cfg.track = k then takeAllLineNotices n s else s) (settleNotices k s)

/-- The positions that a REBASE shifts on one line: the end position of a DISTANCE pulse on track k (R18). -/
def lineEnds (k : TrackId) (u : Line) : List Int :=
  if hasDistancePulse u k then
    match u.pulse with
    | some ⟨_, .distance e _ _, _, _, _⟩ => [e]
    | _ => []
  else []

/-- Every position that a REBASE of track k shifts (R18, R58, R93). -/
def rebasePositions (k : TrackId) (s : State) : List Int :=
  s.tracks[k].pos :: (s.csu.schedules[k].flatMap fun c => [c.nominal, c.effective]) ++
    (if s.marks[k].valid then [s.marks[k].last] else []) ++ allLines.flatMap fun n => lineEnds k s.lines[n]

/-- Every shifted position lies in the range (R18). -/
def rebaseFits (k : TrackId) (d : Int) (s : State) : Bool := (rebasePositions k s).all fun p => inRange (p + d)

/-- A line with the end position of a DISTANCE pulse on track k shifted (R18). -/
def shiftLine (k : TrackId) (d : Int) (u : Line) : Line :=
  if hasDistancePulse u k then
    match u.pulse with
    | some ⟨o, .distance e t m, i, f, h⟩ => { u with pulse := some ⟨o, .distance (e + d) t m, i, f, h⟩ }
    | _ => u
  else u

/-- A track unit shifted by a REBASE; the velocity window restarts unless it is DISABLED (R18, R19). -/
def shiftTrack (d : Int) (t : Track) : Track :=
  { t with pos := t.pos + d,
           window := if t.state = .disabled then t.window else windowFrom { t with pos := t.pos + d } }

/-- A mark unit shifted by a REBASE: a VALID last mark (R18, R93). -/
def shiftMark (d : Int) (m : Mark) : Mark := if m.valid then { m with last := m.last + d } else m

/-- The shifts of an accepted REBASE; the position that the CSU last took is moved with the others (R18, R50, R58, R93). -/
def rebaseShift (k : TrackId) (d : Int) (s : State) : State :=
  let s := setTrack k (shiftTrack d s.tracks[k]) s
  let s := setTaken k (s.csu.taken[k] + d) (setSchedule k (s.csu.schedules[k].map (shiftCue d)) s)
  let s := setMark k (shiftMark d s.marks[k]) s
  allLines.foldl (fun s n => setLine n (shiftLine k d s.lines[n]) s) s

/-- A field that only a DISABLED track may change differs (R4, Table 1-2). -/
def changesDisabledOnly (old new : TrackConfig) : Bool :=
  old.source != new.source || old.travel != new.travel || old.sense != new.sense || old.sampleWidth != new.sampleWidth

/-- The track unit with a new configuration: leaving QUAD disarms home, leaving or entering SAMPLED discards r_prev, leaving SIM
sets the simulation velocity to 0 and discards the remainder (R5, R35, R36). -/
def configuredTrack (t : Track) (c : TrackConfig) : Track :=
  { t with
    cfg := c
    homeArmed := if t.cfg.source = .quad ∧ c.source ≠ .quad then false else t.homeArmed
    rPrev := if t.cfg.source ≠ c.source ∧ (t.cfg.source = .sampled ∨ c.source = .sampled) then none else t.rPrev
    simVel := if t.cfg.source = .sim ∧ c.source ≠ .sim then 0 else t.simVel
    remainder := if t.cfg.source = .sim ∧ c.source ≠ .sim then 0 else t.remainder }

/-! ### The rows of this block -/

/-- Meaning of PHASE_CHANGE. -/
def execPhaseChange (k : TrackId) (a b : Bool) (s : State) : Host.Outcome State Fault Refusal := .next (phaseChange k a b s)

/-- Meaning of INDEX_EDGE. -/
def execIndexEdge (k : TrackId) (s : State) : Host.Outcome State Fault Refusal := .next (indexEdge k s)

/-- Meaning of SAMPLE_TIMER_EXPIRY. -/
def execSampleTimerExpiry (k : TrackId) (s : State) : Host.Outcome State Fault Refusal := .next (sampleTimerExpiry k s)

/-- Meaning of TRANSFER_COMPLETION. -/
def execTransferCompletion (k : TrackId) (start : Bool) (raw : BitVec 32) (parity stop : Bool) (s : State) :
    Host.Outcome State Fault Refusal := .next (transferCompletion k start raw parity stop s)

/-- Meaning of UPDATE_INTERVAL_EXPIRY. -/
def execUpdateIntervalExpiry (k : TrackId) (s : State) : Host.Outcome State Fault Refusal :=
  .next (updateIntervalExpiry k s)

/-- Meaning of SETTLE_EXPIRY. -/
def execSettleExpiry (k : TrackId) (s : State) : Host.Outcome State Fault Refusal := .next (settleExpiry k s)

/-- Meaning of WINDOW_END. -/
def execWindowEnd (k : TrackId) (s : State) : Host.Outcome State Fault Refusal := .next (windowEnd k s)

end Sys2Proof.Machine
end

