-- ==== Sys2Proof/Machine/Reset.lean ====
section
/-! DEFINITION. The full reset of the part (R6, R38, R48, R80, R100, R103, R117, R123, R133, R140, R156, R157, R173). -/

namespace Sys2Proof.Machine

/-- The inhibit condition as the reset ends: an INH pin found high is an assertion (R117). -/
def inhibitAtReset (s : State) : State := if s.pins.inhibit then assertInhibit s else s

/-- The sense conditions as the reset ends: a stage found STUCK_ON is judged (R123, R127). -/
def senseAtReset (s : State) : State := allLines.foldl (fun s n => judge n s) s

/-- A full reset: every block at its reset value, then what the pins present. The pins, the model's time and the
queue of commands are not part of the reset (log 9, log 10). -/
def fullReset (cause : ResetCause) (s : State) : State :=
  senseAtReset (inhibitAtReset (State.afterReset cause s.pins s.now s.pending))

/-- Meaning of POWER_ON (R6). -/
def execPowerOn (s : State) : Host.Outcome State Fault Refusal := .next (fullReset .power s)

/-- Meaning of RESETN (R6). -/
def execResetn (s : State) : Host.Outcome State Fault Refusal := .next (fullReset .pin s)

end Sys2Proof.Machine
end

