-- ==== Sys2Proof/Machine/LinkInterface.lean ====
section
/-! DEFINITION. The link interfaces and the report queues: receiving and judging frames, the current command and its reply, the
choice of the outbound frame, link supervision, loss and resumption, and the baud change (08, 09, 10). -/

namespace Sys2Proof.Machine

/-- The link interface of a link. -/
def linkOn (s : State) (l : LinkId) : Link := s.links.at_ l

/-- The report queue of a link. -/
def queueOn (s : State) (l : LinkId) : Queue := s.queues.at_ l

/-! ### The report queue -/

/-- The record is IN_FLIGHT (R173). -/
def Standing.isInFlight : Standing → Bool
  | .inFlight _ => true
  | _ => false

/-- The record is IN_FLIGHT with its resend-due mark set (R173). -/
def Standing.isDue : Standing → Bool
  | .inFlight due => due
  | _ => false

/-- In-flight count (R173). -/
def Queue.inFlight (q : Queue) : Nat := (q.records.filter fun r => r.standing.isInFlight).length

/-- Append a record as WAITING with the next report SEQ (R174). -/
def Queue.append (q : Queue) (r : Report) : Queue :=
  { q with records := q.records ++ [⟨r, q.nextSeq, .waiting⟩], nextSeq := q.nextSeq + 1 }

/-- The queue takes a record handed to it (R174). -/
def Queue.take (q : Queue) (r : Report) : Queue :=
  if q.accepting then
    if q.records.length < Config.queueSize then q.append r else { q with dropped := countUp q.dropped }
  else q

/-- Give the first record that `p` accepts a new standing. -/
def restand (p : Record → Bool) (standing : Standing) : List Record → List Record
  | [] => []
  | r :: rs => if p r then { r with standing := standing } :: rs else r :: restand p standing rs

/-- A record offered for sending: the oldest due IN_FLIGHT record, else below the window the oldest WAITING one (R175). -/
def Queue.offer (q : Queue) : Option (Record × Queue) :=
  match q.records.find? fun r => r.standing.isDue with
  | some r => some (r, { q with records := restand (fun r => r.standing.isDue) (.inFlight false) q.records })
  | none =>
    if q.inFlight < Config.windowSize then
      (q.records.find? fun r => r.standing == .waiting).map fun r =>
        (r, { q with records := restand (fun r => r.standing == .waiting) .sending q.records })
    else none

/-- The record with this report SEQ is SENDING. -/
def isSending (seq : Byte) (r : Record) : Bool := r.seq == seq && r.standing == .sending

/-- The queue takes a sent notice; `restart` is where a started resend timer ends (R176). -/
def Queue.sent (q : Queue) (seq : Byte) (restart : Nat) : Queue :=
  if q.records.any (isSending seq) then
    { q with records := restand (isSending seq) (.inFlight false) q.records
             resendTimer := some (q.resendTimer.getD restart) }
  else q

/-- Set the resend-due mark of an IN_FLIGHT record (R177). -/
def Record.markDue (r : Record) : Record := if r.standing.isInFlight then { r with standing := .inFlight true } else r

/-- The records that ACK_REPORTS with this SEQ releases: those up to the IN_FLIGHT record it names (R178). -/
def Queue.releasable (q : Queue) (seq : Byte) : Option Nat :=
  (q.records.findIdx? fun r => r.seq == seq && r.standing.isInFlight).map (· + 1)

/-- Queue the OVERFLOW record of a nonzero dropped count (R179). -/
def Queue.reportOverflow (q : Queue) : Queue :=
  if q.dropped = 0 then q else { q.append (.overflow q.dropped) with dropped := 0 }

/-- The queue after the release of its oldest `n` records (R177, R178, R179). -/
def Queue.release (q : Queue) (n restart : Nat) : Queue :=
  let rest := q.records.drop n
  ({ q with records := rest
            resendTimer := if rest.any fun r => r.standing.isInFlight then some restart else none } : Queue).reportOverflow

/-- The queue purged at the loss of its link; the next report SEQ is left (R180). -/
def Queue.purge (q : Queue) : Queue := { q with records := [], resendTimer := none, dropped := 0, accepting := false }

/-- The queue at the resumption of its link (R181). -/
def Queue.resume (q : Queue) : Queue := { q with accepting := true, nextSeq := 0 }.append .linkResumed

/-! ### The outbound frame (R148, R149) -/

/-- LI0 begins no frame: a rate is pending and the reply it waited for is done (R152). -/
def baudHolds (s : State) (l : LinkId) : Bool := l == .link0 && s.baud.pending.isSome && s.baud.awaiting == none

/-- Choose the next report frame that the queue offers (R148, R175). -/
def chooseReport (l : LinkId) (s : State) : State :=
  match (queueOn s l).offer with
  | some (r, q) =>
    setQueue l q (setLink l { linkOn s l with
      outbound := some ⟨.report r.seq, frameBytes 0x03 r.seq r.report.payload, 0⟩ } s)
  | none => s

/-- Choose the outbound frame that a link sending none begins now, if there is one (R148, log 14). -/
def pump (l : LinkId) (s : State) : State :=
  let u := linkOn s l
  if u.outbound.isSome || baudHolds s l then s
  else if u.replyPending then
    setLink l { u with replyPending := false, outbound := some ⟨.reply, u.storedReply.getD [], 0⟩ } s
  else if u.holdReports then s
  else chooseReport l s

/-- LINK0 begins its next frame as soon as R148 allows; LINK1 waits for the host's clock (R141, R148, R149, log 14). -/
def kick (s : State) : State := pump .link0 s

/-- The level of TXD0, true is high: it rests high while LINK0 sends no frame; the bits of a frame are not modelled (R140, R141,
log 7). -/
def txd0 (s : State) : Option Bool := if (linkOn s .link0).outbound.isSome then none else some true

/-- The byte LINK1 shifts out at the next eight clocks: the next byte of the outbound frame; between frames the SYNC of the next
frame if SDO1 presents it, and else the fill byte (R142, R149). -/
def nextOutByte (s : State) : Byte :=
  match (linkOn s .link1).outbound with
  | some o => o.bytes.getD o.sent (if (linkOn s .link1).syncOut then syncByte else 0)
  | none => if (linkOn s .link1).syncOut then syncByte else 0

/-- The level of SDO1 at the start of a byte: undriven while deselected, else the first bit to be sent (R142). -/
def sdo1 (s : State) : Option Bool := if s.pins.selected then some (nextOutByte s).msb else none

/-! ### The current command -/

/-- The oldest buffered frame becomes the current command of a link that has none (R146). -/
def promoteLink (u : Link) : Link :=
  match u.current, u.inbound with
  | none, f :: rest => { u with current := some ⟨f, false, false⟩, inbound := rest }
  | _, _ => u

/-- The next frame of a link becomes current if none is (R146). -/
def promote (l : LinkId) (s : State) : State := setLink l (promoteLink (linkOn s l)) s

/-- The pending rate no longer waits for the reply of link `l` (R152). -/
def releaseBaud (l : LinkId) (s : State) : State :=
  if s.baud.awaiting = some l then { s with baud := { s.baud with awaiting := none } } else s

/-- The current command ends, its reply sent or dropped: an accepted RESET resets the part, else the next frame
becomes current (R146, R150, R152, R156). -/
def endCurrent (l : LinkId) (s : State) : State :=
  let s := releaseBaud l s
  if (linkOn s l).resetWait then fullReset .command s
  else promote l (setLink l { linkOn s l with current := none } s)

/-! ### Receiving frames -/

/-- A valid-frame notice: IDLE goes UP, UP stays UP, LOST resumes; the supervision timer starts (R163, R164, R168). -/
def validNotice (l : LinkId) (s : State) : State :=
  let u := linkOn s l
  let q := queueOn s l
  let timer := if u.timeout = 0 then none else some (afterMs s u.timeout)
  setQueue l (if u.state = .lost then q.resume else q) (setLink l { u with state := .up, supervision := timer } s)

/-- The link interface after a valid frame meets the third check of R144; `resumes` says that its notice resumed the
link, and reports then wait for its reply (R144, R181, log 16). -/
def bufferFrame (u : Link) (f : Frame) : Link :=
  if u.inbound.length < Config.inboundSize then
    promoteLink { u with inbound := u.inbound ++ [f], holdReports := u.holdReports || f.resumes }
  else { u with discarded := countUp u.discarded }

/-- A valid frame: its notice, then the inbound buffer or a discard (R144). -/
def acceptFrame (l : LinkId) (seq : Byte) (payload : List Byte) (s : State) : State :=
  let resumes := isLost s l
  let s := validNotice l s
  setLink l (bufferFrame (linkOn s l) ⟨seq, payload, resumes⟩) s

/-- What the bytes from a SYNC on amount to (R143). -/
inductive Reception where
  | incomplete
  | badLen
  | complete (size : Nat)
  deriving DecidableEq, Repr

/-- Judge the LEN and the number of bytes from a SYNC on (R143). -/
def reception : List Byte → Reception
  | _ :: len :: rest =>
    if len.toNat = 0 ∨ Config.maxPayload < len.toNat then .badLen
    else if len.toNat + 4 ≤ rest.length then .complete (len.toNat + 6)
    else .incomplete
  | _ => .incomplete

/-- Checks 1 and 2 of R144 on a complete frame: its SEQ and payload, none when its CRC or its TYPE is wrong. -/
def readFrame (f : List Byte) : Option (Byte × List Byte) :=
  let body := (f.take (f.length - 2)).drop 1
  if f.drop (f.length - 2) = crcBytes body ∧ fieldAt body 1 1 = 1 then
    some (BitVec.ofNat 8 (fieldAt body 2 1), body.drop 3)
  else none

/-- Set the bytes that the receiver of a link holds; none is HUNTING (R140). -/
def setReceiver (l : LinkId) (bs : List Byte) (s : State) : State := setLink l { linkOn s l with receiver := bs } s

/-- Count a bad frame (R143, R144). -/
def countBad (l : LinkId) (s : State) : State :=
  setLink l { linkOn s l with badFrames := countUp (linkOn s l).badFrames } s

/-- Examine bytes in order as though they were being received (R143). A discard goes on after its SYNC; a buffered
frame is passed over whole; an incomplete frame stays in the receiver, or is dropped when `truncated` (R145).
`fuel` bounds the bytes to examine. -/
def rescan (l : LinkId) (truncated : Bool) : Nat → List Byte → State → State
  | 0, _, s => setReceiver l [] s
  | fuel + 1, bs, s =>
    match bs with
    | [] => setReceiver l [] s
    | b :: rest =>
      if b = syncByte then
        match reception bs with
        | .badLen => rescan l truncated fuel rest (countBad l s)
        | .incomplete => if truncated then rescan l truncated fuel rest s else setReceiver l bs s
        | .complete size =>
          match readFrame (bs.take size) with
          | none => rescan l truncated fuel rest (countBad l s)
          | some (seq, payload) =>
            let room := decide ((linkOn s l).inbound.length < Config.inboundSize)
            rescan l truncated fuel (if room then bs.drop size else rest) (acceptFrame l seq payload s)
      else rescan l truncated fuel rest s

/-- Judge the frame in the receiver: discarded by its LEN, complete, or still incomplete and kept (R143, R144). -/
def judgeReceiver (l : LinkId) (s : State) : State :=
  rescan l false ((linkOn s l).receiver.length + 1) (linkOn s l).receiver s

/-- A frame that has begun and is not complete is truncated (R145). -/
def truncateReceiver (l : LinkId) (s : State) : State :=
  let s := judgeReceiver l s
  match (linkOn s l).receiver with
  | [] => s
  | _ :: rest =>
    rescan l true (rest.length + 1) rest
      (setLink l { linkOn s l with truncated := countUp (linkOn s l).truncated } s)

/-- The receiver takes one byte, after judging what it held (R143, log 20). -/
def takeByte (l : LinkId) (b : Byte) (s : State) : State :=
  let s := judgeReceiver l s
  match (linkOn s l).receiver with
  | [] => if b = syncByte then setReceiver l [b] s else s
  | bs => setReceiver l (bs ++ [b]) s

/-! ### The end of an outbound frame -/

/-- The last byte of the outbound frame has been sent; LINK0 byte progress is not kept (log 15). -/
def fullySent (l : LinkId) (o : Outbound) : Bool := l == .link0 || o.sent == o.bytes.length

/-- The reply has been sent: the current command ends (R146). -/
def finishReply (l : LinkId) (s : State) : State :=
  let u := linkOn s l
  let resumed := match u.current with
    | some c => c.frame.resumes
    | none => false
  endCurrent l (setLink l { u with outbound := none, holdReports := u.holdReports && !resumed } s)

/-- The report frame has been sent: the sent notice to the queue (R148, R176). -/
def finishReport (l : LinkId) (seq : Byte) (s : State) : State :=
  setQueue l ((queueOn s l).sent seq (afterMs s (linkOn s l).resend)) (setLink l { linkOn s l with outbound := none } s)

/-- End an outbound frame of either kind. -/
def finishOutbound (l : LinkId) (o : Outbound) (s : State) : State :=
  match o.kind with
  | .reply => finishReply l s
  | .report seq => finishReport l seq s

/-- A LINK1 frame shifted out to its last byte ends, at the latest before the next byte is shifted (R149). -/
def finishShifted (s : State) : State :=
  match (linkOn s .link1).outbound with
  | some o => if o.sent = o.bytes.length then finishOutbound .link1 o s else s
  | none => s

/-- ATTN1 is asserted while a frame is chosen for sending or partly sent on LINK1 (R149). -/
def attn1 (s : State) : Bool := (linkOn (pump .link1 (finishShifted s)) .link1).outbound.isSome

/-- Set what SDO1 presents between frames (R142). -/
def setSyncOut (b : Bool) (s : State) : State := setLink .link1 { linkOn s .link1 with syncOut := b } s

/-- LINK1 shifts out one byte. A frame whose SYNC SDO1 presents is chosen and begins now; else the byte is the next one of the
outbound frame, or the fill byte (R142, R148, R149, log 14). -/
def shiftOut (s : State) : State :=
  let s := if (linkOn s .link1).syncOut then pump .link1 (setSyncOut false s) else s
  match (linkOn s .link1).outbound with
  | some o => setLink .link1 { linkOn s .link1 with outbound := some { o with sent := o.sent + 1 } } s
  | none => s

/-- LINK1 is sending no frame, or has sent the last byte of one. -/
def betweenFrames (u : Link) : Bool :=
  match u.outbound with
  | some o => o.sent == o.bytes.length
  | none => true

/-- LINK1 has sent the last byte of the reply of an accepted RESET: a full reset is due (R156). -/
def resetDue (u : Link) : Bool :=
  u.resetWait &&
    match u.outbound with
    | some o => o.kind == .reply && o.sent == o.bytes.length
    | none => false

/-- LINK1 presents the first bit of its next byte, at the selection or at the last clock edge of a byte: between frames, that
of a SYNC if a frame is to be sent. A reset that is due leaves SDO1 low (R140, R142, R149). -/
def presentNext (s : State) : State :=
  let u := linkOn s .link1
  setSyncOut (betweenFrames u && !resetDue u && attn1 s) s

/-! ### Executing a command -/

/-- What a command gives: its status, its results and the state it leaves (R146, R186). -/
structure Answer where
  status : Status
  results : List Byte
  state : State
  deriving DecidableEq, Repr

/-- A refusal without results that changes nothing (R186). -/
def refuse (status : Status) (s : State) : Answer := ⟨status, [], s⟩

/-- A command whose operands have been judged: refused, or run on them (R186, steps 2 and 3). -/
def withArgs {α : Type} (args : Except Status α) (s : State) (run : α → Answer) : Answer :=
  match args with
  | .ok a => run a
  | .error status => refuse status s

/-- The frame is the current command of the link and not yet executed. -/
def isWaiting (l : LinkId) (seq : Byte) (payload : List Byte) (s : State) : Bool :=
  match (linkOn s l).current with
  | some c => !c.executed && c.frame.seq == seq && c.frame.payload == payload
  | none => false

/-- A command frame that is not yet the current command of its link arrives on it as a valid frame. One that a full buffer discards
only counts as discarded: its bytes are not examined again as R143 has it for bytes received one by one (DESIGN CHOICE, log 1). -/
def present (l : LinkId) (seq : Byte) (payload : List Byte) (s : State) : State :=
  if isWaiting l seq payload s || payload.isEmpty || decide (Config.maxPayload < payload.length) then s
  else acceptFrame l seq payload s

/-- The current command of a link is a duplicate (R147). -/
def isDuplicate (l : LinkId) (seq : Byte) (s : State) : Bool := (linkOn s l).lastSeq == some seq

/-- The link interface with its current command marked as executed and a reply pending. -/
def Link.answered (u : Link) : Link :=
  { u with replyPending := true, current := u.current.map fun c => { c with executed := true } }

/-- A duplicate: the stored reply is pending again (R147). -/
def takeDuplicate (l : LinkId) (s : State) : State :=
  setLink l { (linkOn s l).answered with duplicates := countUp (linkOn s l).duplicates } s

/-- The current command of a link began before its loss; its reply is dropped (R150). -/
def isOrphan (l : LinkId) (s : State) : Bool :=
  match (linkOn s l).current with
  | some c => c.orphan
  | none => false

/-- The reply frame of a command (R146, R186). -/
def replyFrame (seq : Byte) (payload : List Byte) (a : Answer) : List Byte :=
  frameBytes 0x02 seq (payload.headD 0 :: a.status.code :: a.results)

/-- Store the reply of an executed command and make it pending; the reply of an orphan is dropped (R146, R150). -/
def reply (l : LinkId) (seq : Byte) (payload : List Byte) (a : Answer) : State :=
  if isOrphan l a.state then endCurrent l a.state
  else
    setLink l { (linkOn a.state l).answered with storedReply := some (replyFrame seq payload a), lastSeq := some seq }
      a.state

/-- The current command of a link is tested for duplication, then executed (R146, R147). Its ownership check and its effect are one
event, for an orphan its row after the loss, so that no CLAIM stands between them (R162): DESIGN CHOICE, log 33. -/
def execute (run : LinkId → List Byte → State → Answer) (l : LinkId) (seq : Byte) (payload : List Byte) (s : State) :
    State :=
  if isDuplicate l seq s && !isOrphan l s then takeDuplicate l s else reply l seq payload (run l payload s)

/-- A row of a host command: the frame arrives on its link unless it already waits as the current command, and is
executed once it is the current command (R146, log 1). -/
def hostCommand (run : LinkId → List Byte → State → Answer) (l : LinkId) (seq : Byte) (payload : List Byte) (s : State) :
    State :=
  let s := present l seq payload (kick s)
  kick (if isWaiting l seq payload s then execute run l seq payload s else s)

/-- DUPLICATE (R147): the frame is current, and is answered with the stored reply if it is a duplicate. -/
def duplicateFrame (l : LinkId) (seq : Byte) (payload : List Byte) (s : State) : State :=
  let s := present l seq payload (kick s)
  kick (if isWaiting l seq payload s && isDuplicate l seq s then takeDuplicate l s else s)

/-! ### Link loss (R150, R165, R166, R167, R180) -/

/-- The resource of a resource number, as a loss notice (09). -/
def lossNotice (r : Fin 20) : LossNotice :=
  if h : r.val < 4 then .track ⟨r.val, h⟩ else .line ⟨r.val - 4, by omega⟩

/-- Hand over the notices of a FLUSH loss policy (R166). -/
def handLoss (m : LossNotice) (s : State) : State :=
  let t := { s.transit with csuLoss := s.transit.csuLoss ++ [m] }
  match m with
  | .track k => setTransit { t with markLoss := t.markLoss.set k (t.markLoss[k] + 1) } s
  | .line n => setTransit { t with lineLoss := t.lineLoss.set n (t.lineLoss[n] + 1) } s

/-- Release an entry that the lost link owns, and apply its policy (R165, R166). -/
def releaseLost (l : LinkId) (s : State) (r : Fin 20) : State :=
  if s.claims[r].owner = some l then
    match s.claims[r].policy with
    | .keep => setClaim r .free s
    | .flush => handLoss (lossNotice r) (setClaim r .free s)
  else s

/-- A duplicate that is current at the loss has had its reply made pending (R147). -/
def settleDuplicate (l : LinkId) (s : State) : State :=
  match (linkOn s l).current with
  | some c => if !c.executed && !c.orphan && isDuplicate l c.frame.seq s then takeDuplicate l s else s
  | none => s

/-- The link interface at the loss of its link: the last SEQ, the buffer, a reply not begun; a command that is not yet
executed loses its reply, and a frame partly sent is kept (R150, R163, log 21). -/
def lostLink (u : Link) : Link :=
  { u with
    state := .lost, supervision := none, lastSeq := none, inbound := [], replyPending := false, holdReports := false
    current := u.current.map fun c => { c with orphan := !c.executed, frame := { c.frame with resumes := false } } }

/-- The claims released and the other link told (R165, steps 3 and 4). -/
def releaseClaims (l : LinkId) (s : State) : State :=
  raiseUnlessLost (otherLink l) (.linkLost l) (allResources.foldl (releaseLost l) s)

/-- The loss of a link (R165). A RESET whose reply is dropped resets the part at the drop (R150, R156); the model's choice is that
the loss ends there, without steps 3 and 4 of R165 (log 28). -/
def loseLink (l : LinkId) (s : State) : State :=
  let s := settleDuplicate l s
  let dropped := (linkOn s l).replyPending
  let s := setQueue l (queueOn s l).purge (setLink l (lostLink (linkOn s l)) s)
  if dropped && (linkOn s l).resetWait then endCurrent l s
  else releaseClaims l (if dropped then endCurrent l s else s)

/-! ### The rows of this block -/

/-- RECEIVED_BYTE (R142, R143, R149): on LINK1 a byte is shifted out as one is taken in, and only while selected. -/
def receivedByte (l : LinkId) (b : Byte) (s : State) : State :=
  let s := kick s
  match l with
  | .link0 => kick (takeByte .link0 b s)
  | .link1 => if s.pins.selected then kick (presentNext (takeByte .link1 b (shiftOut (finishShifted s)))) else s

/-- COMPLETE_FRAME (R144): the complete frame in the receiver is judged. -/
def completeFrame (l : LinkId) (s : State) : State :=
  let s := kick s
  match reception (linkOn s l).receiver with
  | .complete _ => kick (judgeReceiver l s)
  | _ => s

/-- BAD_LEN_DISCARD (R143): the frame in the receiver has a LEN outside 1 to 200. -/
def badLenDiscard (l : LinkId) (s : State) : State :=
  let s := kick s
  match reception (linkOn s l).receiver with
  | .badLen => kick (judgeReceiver l s)
  | _ => s

/-- GAP_TRUNCATION (R145). -/
def gapTruncation (s : State) : State := kick (truncateReceiver .link0 (kick s))

/-- CS1N selects or deselects LINK1 (R142). -/
def selectLink1 (b : Bool) (s : State) : State := { s with pins := { s.pins with selected := b } }

/-- The bytes already sent of an interrupted LINK1 frame count for nothing (R149). -/
def interruptOutbound (s : State) : State :=
  match (linkOn s .link1).outbound with
  | some o =>
    if o.sent = o.bytes.length then s
    else setLink .link1 { linkOn s .link1 with outbound := some { o with sent := 0 } } s
  | none => s

/-- CS1N_RISE (R142, R145, R149). -/
def cs1nRise (s : State) : State :=
  let s := kick s
  if s.pins.selected then kick (truncateReceiver .link1 (interruptOutbound (setSyncOut false (selectLink1 false s)))) else s

/-- CS1N_FALL (R142): the link is selected, and SDO1 presents the first bit of its next byte. -/
def cs1nFall (s : State) : State :=
  let s := kick s
  if s.pins.selected then s else presentNext (selectLink1 true s)

/-- REPLY_SENT (R146): the last byte of the reply has been sent. -/
def replySent (l : LinkId) (s : State) : State :=
  let s := kick s
  match (linkOn s l).outbound with
  | some ⟨.reply, bytes, sent⟩ =>
    if fullySent l ⟨.reply, bytes, sent⟩ then kick (finishReply l s) else s
  | _ => s

/-- SENT_NOTICE (R176): the last byte of the report frame has been sent. -/
def sentNotice (l : LinkId) (s : State) : State :=
  let s := kick s
  match (linkOn s l).outbound with
  | some ⟨.report seq, bytes, sent⟩ =>
    if fullySent l ⟨.report seq, bytes, sent⟩ then kick (finishReport l seq s) else s
  | _ => s

/-- The conditions of R152 all hold. -/
def baudReady (s : State) : Bool :=
  s.baud.awaiting == none && (linkOn s .link0).outbound.isNone && (linkOn s .link0).receiver.isEmpty

/-- PENDING_BAUD_RATE_APPLIED (R152). The rate changes when this row runs, which may be behind other rows that follow the first
moment at which the conditions hold: DESIGN CHOICE, log 34. -/
def pendingBaudRateApplied (s : State) : State :=
  let s := kick s
  match s.baud.pending with
  | some r => if baudReady s then kick { s with baud := ⟨r, none, none⟩ } else s
  | none => s

/-- LINK_LOSS (R165): the supervision timer of an UP link expires. -/
def linkLoss (l : LinkId) (s : State) : State :=
  let s := kick s
  if (linkOn s l).state = .up ∧ (linkOn s l).supervision.isSome then kick (loseLink l s) else s

/-- REPORT_RECORD (R174): the queue takes the oldest record handed to it. -/
def reportRecord (l : LinkId) (s : State) : State :=
  let s := kick s
  match s.transit.toQueue.at_ l with
  | r :: rest =>
    kick (setQueue l ((queueOn s l).take r) (setTransit { s.transit with toQueue := s.transit.toQueue.put l rest } s))
  | [] => s

/-- RESEND_EXPIRY (R177): every IN_FLIGHT record is due again, and the timer restarts. -/
def resendExpiry (l : LinkId) (s : State) : State :=
  let s := kick s
  match (queueOn s l).resendTimer with
  | some _ =>
    kick (setQueue l { queueOn s l with
      records := (queueOn s l).records.map Record.markDue
      resendTimer := some (afterMs s (linkOn s l).resend) } s)
  | none => s

/-- Meaning of RECEIVED_BYTE. -/
def execReceivedByte (l : LinkId) (b : Byte) (s : State) : Host.Outcome State Fault Refusal := .next (receivedByte l b s)

/-- Meaning of COMPLETE_FRAME. -/
def execCompleteFrame (l : LinkId) (s : State) : Host.Outcome State Fault Refusal := .next (completeFrame l s)

/-- Meaning of BAD_LEN_DISCARD. -/
def execBadLenDiscard (l : LinkId) (s : State) : Host.Outcome State Fault Refusal := .next (badLenDiscard l s)

/-- Meaning of GAP_TRUNCATION. -/
def execGapTruncation (s : State) : Host.Outcome State Fault Refusal := .next (gapTruncation s)

/-- Meaning of CS1N_RISE. -/
def execCs1nRise (s : State) : Host.Outcome State Fault Refusal := .next (cs1nRise s)

/-- Meaning of CS1N_FALL. -/
def execCs1nFall (s : State) : Host.Outcome State Fault Refusal := .next (cs1nFall s)

/-- Meaning of REPLY_SENT. -/
def execReplySent (l : LinkId) (s : State) : Host.Outcome State Fault Refusal := .next (replySent l s)

/-- Meaning of SENT_NOTICE. -/
def execSentNotice (l : LinkId) (s : State) : Host.Outcome State Fault Refusal := .next (sentNotice l s)

/-- Meaning of PENDING_BAUD_RATE_APPLIED. -/
def execPendingBaudRateApplied (s : State) : Host.Outcome State Fault Refusal := .next (pendingBaudRateApplied s)

/-- Meaning of LINK_LOSS. -/
def execLinkLoss (l : LinkId) (s : State) : Host.Outcome State Fault Refusal := .next (linkLoss l s)

/-- Meaning of REPORT_RECORD. -/
def execReportRecord (l : LinkId) (s : State) : Host.Outcome State Fault Refusal := .next (reportRecord l s)

/-- Meaning of RESEND_EXPIRY. -/
def execResendExpiry (l : LinkId) (s : State) : Host.Outcome State Fault Refusal := .next (resendExpiry l s)

/-- Meaning of DUPLICATE. -/
def execDuplicate (l : LinkId) (seq : Byte) (payload : List Byte) (s : State) : Host.Outcome State Fault Refusal :=
  .next (duplicateFrame l seq payload s)

end Sys2Proof.Machine
end

