-- ==== Sys2Proof/Machine/Operands.lean ====
section
/-! DEFINITION. The operands of each host command: the payload length of Table 11-3, then the fields at their offsets with their
ranges (R186, steps 2 and 3). A payload includes the command code at offset 0, as in Table 11-6. -/

namespace Sys2Proof.Machine

/-- Steps 2 and 3 of R186: a wrong length is BAD_LENGTH, a bad field value BAD_VALUE. -/
def judged {α : Type} (lengthOk : Bool) (value : Option α) : Except Status α :=
  if lengthOk then
    match value with
    | some a => .ok a
    | none => .error .badValue
  else .error .badLength

/-- A command without arguments (length 1). -/
def parseNone (p : List Byte) : Except Status Unit := judged (p.length == 1) (some ())

/-- PING: 0 to 16 data bytes (R153). -/
def parsePing (p : List Byte) : Except Status (List Byte) :=
  judged (decide (1 ≤ p.length ∧ p.length ≤ 17)) (some (p.drop 1))

/-- A command whose one argument is a track. -/
def parseTrack (p : List Byte) : Except Status TrackId :=
  judged (p.length == 2) (indexOf 4 (fieldAt p 1 1))

/-- A command whose one argument is a line. -/
def parseLine (p : List Byte) : Except Status LineId :=
  judged (p.length == 2) (indexOf 16 (fieldAt p 1 1))

/-- A command whose one argument is a link. -/
def parseLink (p : List Byte) : Except Status LinkId :=
  judged (p.length == 2) (linkOf (fieldAt p 1 1))

/-- Operands of SET_LINK (R151). -/
structure SetLinkArgs where
  target : LinkId
  rate : BaudRate
  timeout : Nat
  resend : Nat
  deriving DecidableEq, Repr

/-- SET_LINK: link, baud rate, supervision timeout 0 or 50 to 10,000 ms, resend time 10 to 2000 ms (R151). -/
def parseSetLink (p : List Byte) : Except Status SetLinkArgs :=
  judged (p.length == 7) do
    let target ← linkOf (fieldAt p 1 1)
    let rate ← baudOf (fieldAt p 2 1)
    let timeout ← if fieldAt p 3 2 = 0 then some 0 else within 50 10000 (fieldAt p 3 2)
    let resend ← within 10 2000 (fieldAt p 5 2)
    return ⟨target, rate, timeout, resend⟩

/-- ACK_REPORTS: a report SEQ (R178). -/
def parseSeq (p : List Byte) : Except Status Byte :=
  judged (p.length == 2) (some (BitVec.ofNat 8 (fieldAt p 1 1)))

/-- CLAIM: a resource number and a loss policy (R158). -/
def parseClaim (p : List Byte) : Except Status (Fin 20 × LossPolicy) :=
  judged (p.length == 3) do
    let r ← indexOf 20 (fieldAt p 1 1)
    let policy ← lossPolicyOf (fieldAt p 2 1)
    return (r, policy)

/-- RELEASE: a resource number (R159). -/
def parseResource (p : List Byte) : Except Status (Fin 20) :=
  judged (p.length == 2) (indexOf 20 (fieldAt p 1 1))

/-- The window lengths a track may have, in ms (Table 1-2). -/
def windowOf (v : Nat) : Option Nat := if v = 1 ∨ v = 2 ∨ v = 5 ∨ v = 10 ∨ v = 20 then some v else none

/-- SET_TRACK: the whole configuration of a track (Table 1-2, Table 11-3); the jump limit is judged against the
sample width of the same command (R4). -/
def parseSetTrack (p : List Byte) : Except Status (TrackId × TrackConfig) :=
  judged (p.length == 22) do
    let k ← indexOf 4 (fieldAt p 1 1)
    let source ← sourceOf (fieldAt p 2 1)
    let travel ← travelOf (fieldAt p 3 1)
    let sense ← senseOf (fieldAt p 4 1)
    let settleTime ← within 0 2000 (fieldAt p 5 2)
    let window ← windowOf (fieldAt p 7 1)
    let overspeed ← within 0 2147483647 (fieldAt p 8 4)
    let errorLimit ← within 1 15 (fieldAt p 12 1)
    let sampleWidth ← within 12 32 (fieldAt p 17 1)
    let jumpLimit ← within 1 (2 ^ (sampleWidth - 1) - 1) (fieldAt p 13 4)
    let samplePeriod ← within 50 5000 (fieldAt p 18 2)
    let scheduleLimit ← within 0 512 (fieldAt p 20 2)
    return (k, ⟨source, travel, sense, settleTime, window, overspeed, errorLimit, jumpLimit, sampleWidth,
      samplePeriod, scheduleLimit⟩)

/-- PRESET and REBASE: a track and a 6-byte signed value (R15, R18). -/
def parseTrackValue (p : List Byte) : Except Status (TrackId × Int) :=
  judged (p.length == 8) do
    let k ← indexOf 4 (fieldAt p 1 1)
    return (k, signedAt p 2 6)

/-- HOME: a track, and the value to arm or none to disarm; a disarming value is not judged (Table 11-3). -/
def parseHome (p : List Byte) : Except Status (TrackId × Option Int) :=
  judged (p.length == 9) do
    let k ← indexOf 4 (fieldAt p 1 1)
    let arm ← yesNoOf (fieldAt p 2 1)
    return (k, if arm then some (signedAt p 3 6) else none)

/-- SET_SIM: a track and a velocity of -10,000,000 to 10,000,000 counts/s (R35). -/
def parseSetSim (p : List Byte) : Except Status (TrackId × Int) :=
  judged (p.length == 6) do
    let k ← indexOf 4 (fieldAt p 1 1)
    let v ← withinInt (-10000000) 10000000 (signedAt p 2 4)
    return (k, v)

/-- Operands of ADD_CUE (R49). -/
structure AddCueArgs where
  track : TrackId
  line : LineId
  id : BitVec 16
  nominal : Int
  notify : Notify
  profile : Option ProfileId
  width : Option Nat
  tolerance : Option Nat
  repetition : Option CueRepeat
  deriving DecidableEq, Repr

/-- The bytes an optional field of the given size takes when its flag is set. -/
def sizeIf (flag : Bool) (size : Nat) : Nat := if flag then size else 0

/-- An optional field: judged only when its flag is set (R186). -/
def fieldIf {α : Type} (flag : Bool) (value : Option α) : Option (Option α) :=
  if flag then value.map some else some none

/-- ADD_CUE: the fixed part and the flagged fields of Table 11-6, with the ranges of R49. The length is judged
from flag bits 0 to 3 alone (R187). -/
def parseAddCue (p : List Byte) : Except Status AddCueArgs :=
  let flags := fieldAt p 3 1
  let hasProfile := flags.testBit 0
  let hasWidth := flags.testBit 1
  let hasTolerance := flags.testBit 2
  let hasRepeat := flags.testBit 3
  let widthAt := 13 + sizeIf hasProfile 1
  let toleranceAt := widthAt + sizeIf hasWidth 4
  let repeatAt := toleranceAt + sizeIf hasTolerance 4
  judged (decide (4 ≤ p.length) && p.length == repeatAt + sizeIf hasRepeat 6) do
    let k ← indexOf 4 (fieldAt p 1 1)
    let n ← indexOf 16 (fieldAt p 2 1)
    let _ ← within 0 15 flags
    let notify ← notifyOf (fieldAt p 12 1)
    let profile ← fieldIf hasProfile (indexOf 8 (fieldAt p 13 1))
    let width ← fieldIf hasWidth (within 1 16777215 (fieldAt p widthAt 4))
    let tolerance ← fieldIf hasTolerance (within 0 2147483647 (fieldAt p toleranceAt 4))
    let repetition ← fieldIf hasRepeat do
      let pitch ← within 1 2147483647 (fieldAt p repeatAt 4)
      let count ← within 1 65535 (fieldAt p (repeatAt + 4) 2)
      return CueRepeat.mk pitch count
    return ⟨k, n, BitVec.ofNat 16 (fieldAt p 4 2), signedAt p 6 6, notify, profile, width, tolerance, repetition⟩

/-- CANCEL_CUE: a track and a cue id (R55). -/
def parseCancelCue (p : List Byte) : Except Status (TrackId × BitVec 16) :=
  judged (p.length == 4) do
    let k ← indexOf 4 (fieldAt p 1 1)
    return (k, BitVec.ofNat 16 (fieldAt p 2 2))

/-- FLUSH: a track and, by the length, a line (R56). -/
def parseFlush (p : List Byte) : Except Status (TrackId × Option LineId) :=
  judged (p.length == 2 || p.length == 3) do
    let k ← indexOf 4 (fieldAt p 1 1)
    let n ← fieldIf (p.length == 3) (indexOf 16 (fieldAt p 2 1))
    return (k, n)

/-- The key a QUERY_CUE names, encoded as in Table 11-7; a value the encoding cannot give is BAD_VALUE (log 13). -/
def keyOf (origin v : Nat) : Option CueKey :=
  match origin with
  | 0 => if v < 65536 then some (.host (BitVec.ofNat 16 v)) else none
  | 1 =>
    if v / 256 % 256 = 0 then
      (indexOf 8 (v % 256)).map fun e => .mark e (BitVec.ofNat 16 (v / 65536))
    else none
  | _ => none

/-- QUERY_CUE: a track, an origin and a key (R59). -/
def parseQueryCue (p : List Byte) : Except Status (TrackId × CueKey) :=
  judged (p.length == 7) do
    let k ← indexOf 4 (fieldAt p 1 1)
    let key ← keyOf (fieldAt p 2 1) (fieldAt p 3 4)
    return (k, key)

/-- QUERY_SCHEDULE: a track, a start place 0 to 511 and a number 1 to 8 (R60). -/
def parseQuerySchedule (p : List Byte) : Except Status (TrackId × Nat × Nat) :=
  judged (p.length == 5) do
    let k ← indexOf 4 (fieldAt p 1 1)
    let start ← within 0 511 (fieldAt p 2 2)
    let n ← within 1 8 (fieldAt p 4 1)
    return (k, start, n)

/-- The tolerances that a pitch allows: 0 to P - 1, and 0 when P is 0 (R80, R96). -/
def markToleranceOf (pitch tolerance : Nat) : Option Nat :=
  if pitch = 0 then within 0 0 tolerance else within 0 (pitch - 1) tolerance

/-- SET_MARK: a track and the six settings of its mark unit (R96). -/
def parseSetMark (p : List Byte) : Except Status (TrackId × MarkConfig) :=
  judged (p.length == 17) do
    let k ← indexOf 4 (fieldAt p 1 1)
    let edge ← markEdgeOf (fieldAt p 2 1)
    let blank ← within 0 16777215 (fieldAt p 3 4)
    let pitch ← within 0 2147483647 (fieldAt p 7 4)
    let tolerance ← markToleranceOf pitch (fieldAt p 11 4)
    let limit ← within 0 15 (fieldAt p 15 1)
    let reports ← yesNoOf (fieldAt p 16 1)
    return (k, ⟨edge, blank, pitch, tolerance, limit, reports⟩)

/-- SET_TEMPLATE: a track, an entry index and one whole entry; flag bit 0 is enabled, bits 1 to 3 the presence of
profile, width and tolerance (R94, Table 11-3). -/
def parseSetTemplate (p : List Byte) : Except Status (TrackId × EntryId × Template) :=
  let flags := fieldAt p 3 1
  let hasProfile := flags.testBit 1
  let hasWidth := flags.testBit 2
  let hasTolerance := flags.testBit 3
  let widthAt := 10 + sizeIf hasProfile 1
  let toleranceAt := widthAt + sizeIf hasWidth 4
  judged (decide (4 ≤ p.length) && p.length == toleranceAt + sizeIf hasTolerance 4) do
    let k ← indexOf 4 (fieldAt p 1 1)
    let e ← indexOf 8 (fieldAt p 2 1)
    let _ ← within 0 15 flags
    let offset ← within 0 2147483647 (fieldAt p 4 4)
    let n ← indexOf 16 (fieldAt p 8 1)
    let notify ← notifyOf (fieldAt p 9 1)
    let profile ← fieldIf hasProfile (indexOf 8 (fieldAt p 10 1))
    let width ← fieldIf hasWidth (within 1 16777215 (fieldAt p widthAt 4))
    let tolerance ← fieldIf hasTolerance (within 0 2147483647 (fieldAt p toleranceAt 4))
    return (k, e, ⟨flags.testBit 0, offset, n, profile, width, tolerance, notify⟩)

/-- SET_LINE: a line and its six configuration fields (R100, R101). -/
def parseSetLine (p : List Byte) : Except Status (LineId × LineConfig) :=
  judged (p.length == 11) do
    let n ← indexOf 16 (fieldAt p 1 1)
    let enabled ← yesNoOf (fieldAt p 2 1)
    let track ← indexOf 4 (fieldAt p 3 1)
    let profile ← indexOf 8 (fieldAt p 4 1)
    let offset ← withinInt (-1048576) 1048575 (signedAt p 5 4)
    let policy ← policyOf (fieldAt p 9 1)
    let polarity ← polarityOf (fieldAt p 10 1)
    return (n, ⟨enabled, track, profile, offset, policy, polarity⟩)

/-- The widths a pulse mode allows (R103). -/
def widthOf (mode : PulseMode) (v : Nat) : Option Nat :=
  match mode with
  | .time => within 1 65535 v
  | .distance => within 1 16777215 v

/-- The max-on times a pulse mode allows: above 0 only with DISTANCE (R103). -/
def maxOnOf (mode : PulseMode) (v : Nat) : Option Nat :=
  match mode with
  | .time => within 0 0 v
  | .distance => within 0 65535 v

/-- SET_PROFILE: a profile index and all five fields (R103). -/
def parseSetProfile (p : List Byte) : Except Status (ProfileId × Profile) :=
  judged (p.length == 15) do
    let i ← indexOf 8 (fieldAt p 1 1)
    let mode ← pulseModeOf (fieldAt p 2 1)
    let width ← widthOf mode (fieldAt p 3 4)
    let holdoff ← within 0 65535 (fieldAt p 7 2)
    let minSpeed ← within 0 2147483647 (fieldAt p 9 4)
    let maxOn ← maxOnOf mode (fieldAt p 13 2)
    return (i, ⟨mode, width, holdoff, minSpeed, maxOn⟩)

/-- FORCE_LINE: a line and a width of 1 to 65,535 us (R112). -/
def parseForceLine (p : List Byte) : Except Status (LineId × Nat) :=
  judged (p.length == 4) do
    let n ← indexOf 16 (fieldAt p 1 1)
    let width ← within 1 65535 (fieldAt p 2 2)
    return (n, width)

/-- A non-empty set of fault kinds (R131). -/
def kindsOf (v : Nat) : Option FaultSet := if v = 0 then none else faultSetOf v

/-- CLEAR_LINE_FAULT: a line and a non-empty set of kinds (R131). -/
def parseClearLineFault (p : List Byte) : Except Status (LineId × FaultSet) :=
  judged (p.length == 3) do
    let n ← indexOf 16 (fieldAt p 1 1)
    let kinds ← kindsOf (fieldAt p 2 1)
    return (n, kinds)

/-- The line entry of a SET_SUPERVISION (R132). -/
structure SupervisionEntry where
  line : LineId
  masked : FaultSet
  blankTime : Nat
  deriving DecidableEq, Repr

/-- SET_SUPERVISION: the sweep period, 0 or 100 to 60,000 ms, and by the length a line entry (R132). -/
def parseSetSupervision (p : List Byte) : Except Status (Nat × Option SupervisionEntry) :=
  judged (p.length == 3 || p.length == 7) do
    let period ← if fieldAt p 1 2 = 0 then some 0 else within 100 60000 (fieldAt p 1 2)
    let entry ← fieldIf (p.length == 7) do
      let n ← indexOf 16 (fieldAt p 3 1)
      let masked ← faultSetOf (fieldAt p 4 1)
      let blankTime ← within 0 1000 (fieldAt p 5 2)
      return SupervisionEntry.mk n masked blankTime
    return (period, entry)

end Sys2Proof.Machine
end

