-- ==== Sys2Proof/WellFormed.lean ====
section
/-! DEFINITION. Which commands are well formed: the payload of a command frame has 1 to 200 bytes (R143, Table 8-1),
and an UNKNOWN_COMMAND carries a code that Table 11-3 does not list (R186). Every other operand is in range by its type. -/

namespace Sys2Proof

/-- The command codes of Table 11-3. -/
def listedCodes : List Byte :=
  [0x01, 0x02, 0x03, 0x04, 0x05, 0x06, 0x07, 0x10, 0x11, 0x12,
   0x20, 0x21, 0x22, 0x23, 0x24, 0x25, 0x26, 0x27, 0x28, 0x29,
   0x30, 0x31, 0x32, 0x33, 0x34, 0x35, 0x40, 0x41, 0x42, 0x43, 0x44,
   0x50, 0x51, 0x52, 0x53, 0x54, 0x55, 0x56, 0x57]

/-- A payload a frame can carry: 1 to 200 bytes (R143). -/
def payloadFits (payload : List Byte) : Bool :=
  decide (1 ≤ payload.length ∧ payload.length ≤ Config.maxPayload)

/-- The argument bytes after a command code leave the payload within 200 bytes. -/
def argsFit (args : List Byte) : Bool :=
  decide (args.length + 1 ≤ Config.maxPayload)

/-- The well-formed commands. -/
def Instr.wellFormed : Instr → Bool
  | .ping _ _ args => argsFit args
  | .identify _ _ args => argsFit args
  | .setLink _ _ args => argsFit args
  | .queryLink _ _ args => argsFit args
  | .ackReports _ _ args => argsFit args
  | .setRoute _ _ args => argsFit args
  | .reset _ _ args => argsFit args
  | .claim _ _ args => argsFit args
  | .release _ _ args => argsFit args
  | .queryClaims _ _ args => argsFit args
  | .setTrack _ _ args => argsFit args
  | .enableTrack _ _ args => argsFit args
  | .disableTrack _ _ args => argsFit args
  | .preset _ _ args => argsFit args
  | .home _ _ args => argsFit args
  | .rebase _ _ args => argsFit args
  | .queryTrack _ _ args => argsFit args
  | .clearTrackFault _ _ args => argsFit args
  | .setSim _ _ args => argsFit args
  | .clearStats _ _ args => argsFit args
  | .addCue _ _ args => argsFit args
  | .cancelCue _ _ args => argsFit args
  | .flush _ _ args => argsFit args
  | .queryCue _ _ args => argsFit args
  | .querySchedule _ _ args => argsFit args
  | .queryPool _ _ args => argsFit args
  | .setMark _ _ args => argsFit args
  | .armMarks _ _ args => argsFit args
  | .disarmMarks _ _ args => argsFit args
  | .setTemplate _ _ args => argsFit args
  | .queryMarks _ _ args => argsFit args
  | .setLine _ _ args => argsFit args
  | .setProfile _ _ args => argsFit args
  | .forceLine _ _ args => argsFit args
  | .queryLine _ _ args => argsFit args
  | .clearLineFault _ _ args => argsFit args
  | .setSupervision _ _ args => argsFit args
  | .startSweep _ _ args => argsFit args
  | .querySweep _ _ args => argsFit args
  | .unknownCommand _ _ code args => argsFit args && !listedCodes.contains code
  | .duplicate _ _ payload => payloadFits payload
  | .powerOn => true
  | .resetn => true
  | .completeFrame _ => true
  | .gapTruncation => true
  | .cs1nRise => true
  | .badLenDiscard _ => true
  | .replySent _ => true
  | .sentNotice _ => true
  | .pendingBaudRateApplied => true
  | .linkLoss _ => true
  | .flushLossPolicy => true
  | .markUnitOffNotice _ => true
  | .lineLossPolicy _ => true
  | .reportRecord _ => true
  | .resendExpiry _ => true
  | .phaseChange _ _ _ => true
  | .indexEdge _ => true
  | .sampleTimerExpiry _ => true
  | .transferCompletion _ _ _ _ _ => true
  | .updateIntervalExpiry _ => true
  | .settleExpiry _ => true
  | .windowEnd _ => true
  | .evaluationEvent _ => true
  | .firingRequest _ => true
  | .discontinuityNotice _ => true
  | .resumeNotice _ => true
  | .freezeNotice _ => true
  | .spawnRequest _ => true
  | .markEdge _ _ => true
  | .markPositionChange _ => true
  | .markFaultNotice _ => true
  | .markDiscontinuityNotice _ => true
  | .distancePulseEnd _ => true
  | .trackNoticeAtLine _ => true
  | .timePulseEnd _ => true
  | .maxOnExpiry _ => true
  | .holdoffExpiry _ => true
  | .inhibitAssertion => true
  | .inhibitRelease => true
  | .abortByInhibit => true
  | .senseEvent _ _ => true
  | .forcing _ => true
  | .driveViewNotice _ => true
  | .blankingExpiry _ => true
  | .periodTimerExpiry => true
  | .probeStart _ => true
  | .probeTimerExpiry => true
  | .abandonment _ => true
  | .receivedByte _ _ => true
  | .cs1nFall => true

end Sys2Proof
end

