-- ==== Sys2Proof/Machine/HostLink.lean ====
section
/-! DEFINITION. The commands of the links, the reports and the Claim Table (08, 09, 10). -/

namespace Sys2Proof.Machine

/-- An accepted command with results and no effect. -/
def report (results : List Byte) (s : State) : Answer := ⟨.ok, results, s⟩

/-- An accepted command with an effect and no results. -/
def done (s : State) : Answer := ⟨.ok, [], s⟩

/-- The ownership check of a track (R161). -/
def onTrack (l : LinkId) (k : TrackId) (s : State) (run : Answer) : Answer :=
  if heldByOther l (trackOwner s k) then refuse .heldByOther s else run

/-- The ownership check of a line (R161). -/
def onLine (l : LinkId) (n : LineId) (s : State) (run : Answer) : Answer :=
  if heldByOther l (lineOwner s n) then refuse .heldByOther s else run

/-! ### PING, IDENTIFY, SET_LINK, QUERY_LINK, SET_ROUTE, RESET -/

/-- PING (R153). Its reply carries the data as sent, without the count that R186 puts before a list of varying length: DEDUCED,
log 12. -/
def runPing (_ : LinkId) (p : List Byte) (s : State) : Answer := withArgs (parsePing p) s fun data => report data s

/-- The results of IDENTIFY (R153). The sizes and byte order of the codes, the revision and the counts are the model's choice
(log 12). -/
def identity : List Byte := le 2 0x7A4C ++ le 2 0x0416 ++ [0x01] ++ le 2 512 ++ [4, 16]

/-- IDENTIFY (R153). -/
def runIdentify (_ : LinkId) (p : List Byte) (s : State) : Answer := withArgs (parseNone p) s fun _ => report identity s

/-- The supervision timer of a link after SET_LINK (R151, R164). -/
def timerAfterSetLink (s : State) (u : Link) (timeout : Nat) : Option Nat :=
  if timeout = 0 then none
  else if u.state = .up ∧ u.supervision = none then some (afterMs s timeout)
  else u.supervision

/-- The baud rates after a SET_LINK sent on `l` (R151, R152). -/
def baudAfterSetLink (l : LinkId) (a : SetLinkArgs) (b : Baud) : Baud :=
  match a.target with
  | .link1 => b
  | .link0 => if a.rate = b.rate then { b with pending := none, awaiting := none }
              else { b with pending := some a.rate, awaiting := some l }

/-- The effects of an accepted SET_LINK (R151). -/
def applySetLink (l : LinkId) (a : SetLinkArgs) (s : State) : State :=
  let u := linkOn s a.target
  setLink a.target { u with timeout := a.timeout, resend := a.resend, supervision := timerAfterSetLink s u a.timeout }
    { s with baud := baudAfterSetLink l a s.baud }

/-- SET_LINK (R151). -/
def runSetLink (l : LinkId) (p : List Byte) (s : State) : Answer :=
  withArgs (parseSetLink p) s fun a => done (applySetLink l a s)

/-- The baud rate fields of QUERY_LINK (R154). -/
def baudFields (t : LinkId) (b : Baud) : List Byte :=
  match t with
  | .link0 => [b.rate.code, match b.pending with
    | some r => r.code
    | none => 0xFF]
  | .link1 => [0xFF, 0xFF]

/-- The results of QUERY_LINK (R154). That the presence-flags byte has a bit for the last SEQ alone, and the rate and pending-rate
fields none, since R184 carries an absent code as 0FFH, is the model's choice (log 12). -/
def linkResults (s : State) (t : LinkId) : List Byte :=
  let u := linkOn s t
  let q := queueOn s t
  [u.state.code, yesNo u.supervision.isSome, flagsByte [u.lastSeq.isSome], u.lastSeq.getD 0] ++ le 2 u.badFrames ++
    le 2 u.truncated ++ le 2 u.discarded ++ le 2 u.duplicates ++ baudFields t s.baud ++ le 2 u.timeout ++
    le 2 u.resend ++
    [BitVec.ofNat 8 u.inbound.length, BitVec.ofNat 8 q.records.length, BitVec.ofNat 8 q.inFlight, linkCode s.route]

/-- QUERY_LINK (R154). -/
def runQueryLink (_ : LinkId) (p : List Byte) (s : State) : Answer :=
  withArgs (parseLink p) s fun t => report (linkResults s t) s

/-- SET_ROUTE (R155). -/
def runSetRoute (_ : LinkId) (p : List Byte) (s : State) : Answer :=
  withArgs (parseLink p) s fun t => done { s with route := t }

/-- The other link owns an entry of the Claim Table (R156). -/
def otherOwnsAny (l : LinkId) (s : State) : Bool := s.claims.toList.any fun c => heldByOther l c.owner

/-- RESET (R156): refused while the other link owns an entry, else the reset wait begins. -/
def runReset (l : LinkId) (p : List Byte) (s : State) : Answer :=
  withArgs (parseNone p) s fun _ =>
    if otherOwnsAny l s then refuse .heldByOther s else done (setLink l { linkOn s l with resetWait := true } s)

/-! ### ACK_REPORTS -/

/-- ACK_REPORTS (R178, R179). That each of the two counts of the reply is one byte is the model's choice (log 12). -/
def runAckReports (l : LinkId) (p : List Byte) (s : State) : Answer :=
  withArgs (parseSeq p) s fun seq =>
    match (queueOn s l).releasable seq with
    | some n =>
      let q := (queueOn s l).release n (afterMs s (linkOn s l).resend)
      ⟨.ok, [BitVec.ofNat 8 n, BitVec.ofNat 8 q.records.length], setQueue l q s⟩
    | none => refuse .notFound s

/-! ### CLAIM, RELEASE, QUERY_CLAIMS -/

/-- A Claim Table entry as a reply carries it (R158, R160). -/
def Claim.bytes (c : Claim) : List Byte := [ownerCode c.owner, c.policy.code]

/-- CLAIM (R158). -/
def runClaim (l : LinkId) (p : List Byte) (s : State) : Answer :=
  withArgs (parseClaim p) s fun (r, policy) =>
    if heldByOther l s.claims[r].owner then ⟨.heldByOther, s.claims[r].bytes, s⟩
    else if (linkOn s l).state = .up then
      ⟨.ok, Claim.bytes ⟨some l, policy⟩, setClaim r ⟨some l, policy⟩ s⟩
    else refuse .notOwner s

/-- RELEASE (R159). -/
def runRelease (l : LinkId) (p : List Byte) (s : State) : Answer :=
  withArgs (parseResource p) s fun r =>
    if s.claims[r].owner = some l then done (setClaim r .free s) else refuse .notOwner s

/-- QUERY_CLAIMS (R160). -/
def runQueryClaims (_ : LinkId) (p : List Byte) (s : State) : Answer :=
  withArgs (parseNone p) s fun _ => report (allResources.flatMap fun r => s.claims[r].bytes) s

/-- A command whose code Table 11-3 does not list (R186, step 1). -/
def runUnknown (_ : LinkId) (_ : List Byte) (s : State) : Answer := refuse .unknownCommand s

/-! ### The rows of these commands -/

/-- Meaning of PING. -/
def execPing (l : LinkId) (seq : Byte) (args : List Byte) (s : State) : Host.Outcome State Fault Refusal :=
  .next (hostCommand runPing l seq (0x01 :: args) s)

/-- Meaning of IDENTIFY. -/
def execIdentify (l : LinkId) (seq : Byte) (args : List Byte) (s : State) : Host.Outcome State Fault Refusal :=
  .next (hostCommand runIdentify l seq (0x02 :: args) s)

/-- Meaning of SET_LINK. -/
def execSetLink (l : LinkId) (seq : Byte) (args : List Byte) (s : State) : Host.Outcome State Fault Refusal :=
  .next (hostCommand runSetLink l seq (0x03 :: args) s)

/-- Meaning of QUERY_LINK. -/
def execQueryLink (l : LinkId) (seq : Byte) (args : List Byte) (s : State) : Host.Outcome State Fault Refusal :=
  .next (hostCommand runQueryLink l seq (0x04 :: args) s)

/-- Meaning of ACK_REPORTS. -/
def execAckReports (l : LinkId) (seq : Byte) (args : List Byte) (s : State) : Host.Outcome State Fault Refusal :=
  .next (hostCommand runAckReports l seq (0x05 :: args) s)

/-- Meaning of SET_ROUTE. -/
def execSetRoute (l : LinkId) (seq : Byte) (args : List Byte) (s : State) : Host.Outcome State Fault Refusal :=
  .next (hostCommand runSetRoute l seq (0x06 :: args) s)

/-- Meaning of RESET. -/
def execReset (l : LinkId) (seq : Byte) (args : List Byte) (s : State) : Host.Outcome State Fault Refusal :=
  .next (hostCommand runReset l seq (0x07 :: args) s)

/-- Meaning of CLAIM. -/
def execClaim (l : LinkId) (seq : Byte) (args : List Byte) (s : State) : Host.Outcome State Fault Refusal :=
  .next (hostCommand runClaim l seq (0x10 :: args) s)

/-- Meaning of RELEASE. -/
def execRelease (l : LinkId) (seq : Byte) (args : List Byte) (s : State) : Host.Outcome State Fault Refusal :=
  .next (hostCommand runRelease l seq (0x11 :: args) s)

/-- Meaning of QUERY_CLAIMS. -/
def execQueryClaims (l : LinkId) (seq : Byte) (args : List Byte) (s : State) : Host.Outcome State Fault Refusal :=
  .next (hostCommand runQueryClaims l seq (0x12 :: args) s)

/-- Meaning of UNKNOWN_COMMAND: a code of Table 11-3 is none, and changes nothing. -/
def execUnknownCommand (l : LinkId) (seq code : Byte) (args : List Byte) (s : State) : Host.Outcome State Fault Refusal :=
  .next (if listedCodes.contains code then s else hostCommand runUnknown l seq (code :: args) s)

end Sys2Proof.Machine
end

