-- ==== Sys2Proof/Machine/HostLine.lean ====
section
/-! DEFINITION. The commands of the lines and the Profile Table (06). -/

namespace Sys2Proof.Machine

/-! ### SET_LINE -/

/-- The checks of R101: the refusal of a SET_LINE, or none. The pending count is the one held now, within an evaluation event in
progress too: DEDUCED, log 30. -/
def lineRefusal (s : State) (n : LineId) (c : LineConfig) : Option Status :=
  let u := s.lines[n]
  if c.track ≠ u.cfg.track ∧ pendingCount s n ≠ 0 then some .lineInUse
  else if c.track ≠ u.cfg.track ∧ (u.state = .on ∨ u.state = .holdoff ∨ u.state = .test) then some .busy
  else none

/-- The line goes from DISABLED to FAULT or OFF by its latched faults, with its new configuration; a forcing on its way
finds it DISABLED (R114, log 18). -/
def enableLine (n : LineId) (c : LineConfig) (s : State) : State :=
  let s := takeForcing n s
  setLine n { s.lines[n] with cfg := c, state := if s.loads[n].latched.forces then .fault else .off } s

/-- Tell the host and the LSV what the disabling of a line ended, by the state it had (R113). -/
def announceDisabling (n : LineId) (before : LineState) (s : State) : State :=
  match before with
  | .on => tellLsv n .ended (raiseLine n (.pulseTruncated n .disabled) s)
  | .test => tellLsv n (.abandoned .disabling) s
  | _ => s

/-- The line goes to DISABLED from every state, with its new configuration (R113). -/
def disableLine (n : LineId) (c : LineConfig) (s : State) : State :=
  announceDisabling n s.lines[n].state
    (setLine n { s.lines[n] with cfg := c, state := .disabled, pulse := none, holdoffTimer := none } s)

/-- The effects of an accepted SET_LINE (R101, R102). -/
def applySetLine (n : LineId) (c : LineConfig) (s : State) : State :=
  match s.lines[n].cfg.enabled, c.enabled with
  | false, true => enableLine n c s
  | true, false => disableLine n c s
  | _, _ => setLine n { s.lines[n] with cfg := c } s

/-- SET_LINE (R101). -/
def runSetLine (l : LinkId) (p : List Byte) (s : State) : Answer :=
  withArgs (parseSetLine p) s fun (n, c) =>
    onLine l n s <|
      match lineRefusal s n c with
      | some status => refuse status s
      | none => done (applySetLine n c s)

/-! ### SET_PROFILE, FORCE_LINE -/

/-- SET_PROFILE (R103). -/
def runSetProfile (_ : LinkId) (p : List Byte) (s : State) : Answer :=
  withArgs (parseSetProfile p) s fun (i, f) => done (putProfile i f s)

/-- FORCE_LINE (R112). -/
def runForceLine (l : LinkId) (p : List Byte) (s : State) : Answer :=
  withArgs (parseForceLine p) s fun (n, width) =>
    onLine l n s <|
      match s.lines[n].state with
      | .disabled => refuse .lineOff s
      | .fault => refuse .lineFault s
      | .holdoff => if s.inhibited then refuse .inhibited s else refuse .busy s
      | .on =>
        if s.inhibited then refuse .inhibited s
        else if s.lines[n].cfg.policy = .retrigger then done (retrigger n (forcedPulse s n width) s)
        else refuse .busy s
      | .off => if s.inhibited then refuse .inhibited s else done (beginPulse n (forcedPulse s n width) s)
      | .test => if s.inhibited then refuse .inhibited s else done (beginPulse n (forcedPulse s n width) s)

/-! ### QUERY_LINE -/

/-- The time left to a moment, in us. -/
def remainingUs (s : State) (moment : Nat) : Nat := moment - s.now

/-- The time left to a moment, in ms; R121 leaves open how a part of a ms is carried (log 8). -/
def remainingMs (s : State) (moment : Nat) : Nat :=
  if Config.roundMsUp then (remainingUs s moment + 999) / 1000 else remainingUs s moment / 1000

/-- The results of an active pulse in QUERY_LINE, after the flags byte; absent fields are zeros (R121, log 12). -/
def pulseResults (s : State) (p : Option Pulse) : List Byte :=
  match p with
  | none => List.replicate 16 0
  | some p =>
    [p.origin.code, p.finish.mode.code, indexByte p.profile, yesNo p.fromOverride] ++ le 2 p.holdoff ++
      match p.finish with
      | .time moment => le 2 (remainingUs s moment) ++ List.replicate 6 0 ++ [0, 0]
      | .distance e _ none => [0, 0] ++ leInt 6 e ++ [0, 0]
      | .distance e _ (some moment) => [0, 0] ++ leInt 6 e ++ le 2 (remainingMs s moment)

/-- A pulse in TIME mode is present. -/
def timePulse (u : Line) : Bool :=
  match u.pulse with
  | some p => p.finish.mode == .time
  | none => false

/-- A pulse in DISTANCE mode is present. -/
def distancePulse (u : Line) : Bool :=
  match u.pulse with
  | some p => p.finish.mode == .distance
  | none => false

/-- The max-on timer runs. -/
def maxOnRuns (u : Line) : Bool :=
  match u.pulse with
  | some ⟨_, .distance _ _ (some _), _, _, _⟩ => true
  | _ => false

/-- The holdoff timer in QUERY_LINE, zero when it is stopped. -/
def holdoffResult (s : State) (u : Line) : List Byte :=
  match u.holdoffTimer with
  | some moment => le 2 (remainingUs s moment)
  | none => [0, 0]

/-- The results of QUERY_LINE (R121, log 12). -/
def lineResults (s : State) (n : LineId) : List Byte :=
  let u := s.lines[n]
  let f := s.profiles[u.cfg.profile]
  [yesNo u.cfg.enabled, indexByte u.cfg.track, indexByte u.cfg.profile] ++ leInt 4 u.cfg.offset ++
    [u.cfg.policy.code, u.cfg.polarity.code] ++ [indexByte u.cfg.profile, f.mode.code] ++ le 4 f.width ++ le 2 f.holdoff ++
    le 4 f.minSpeed ++ le 2 f.maxOn ++ [u.state.code] ++ le 2 (pendingCount s n) ++
    [flagsByte [u.pulse.isSome, timePulse u, distancePulse u, maxOnRuns u, u.holdoffTimer.isSome]] ++
    pulseResults s u.pulse ++ holdoffResult s u ++ [s.loads[n].latched.code, yesNo s.inhibited]

/-- QUERY_LINE (R121). The pending count is the one held now, within an evaluation event in progress too: DEDUCED, log 30. -/
def runQueryLine (_ : LinkId) (p : List Byte) (s : State) : Answer :=
  withArgs (parseLine p) s fun n => report (lineResults s n) s

/-! ### The rows of these commands -/

/-- Meaning of SET_LINE. -/
def execSetLine (l : LinkId) (seq : Byte) (args : List Byte) (s : State) : Host.Outcome State Fault Refusal :=
  .next (hostCommand runSetLine l seq (0x50 :: args) s)

/-- Meaning of SET_PROFILE. -/
def execSetProfile (l : LinkId) (seq : Byte) (args : List Byte) (s : State) : Host.Outcome State Fault Refusal :=
  .next (hostCommand runSetProfile l seq (0x51 :: args) s)

/-- Meaning of FORCE_LINE. -/
def execForceLine (l : LinkId) (seq : Byte) (args : List Byte) (s : State) : Host.Outcome State Fault Refusal :=
  .next (hostCommand runForceLine l seq (0x52 :: args) s)

/-- Meaning of QUERY_LINE. -/
def execQueryLine (l : LinkId) (seq : Byte) (args : List Byte) (s : State) : Host.Outcome State Fault Refusal :=
  .next (hostCommand runQueryLine l seq (0x53 :: args) s)

end Sys2Proof.Machine
end

