-- ==== Sys2Proof/Machine/HostLoad.lean ====
section
/-! DEFINITION. The commands of the Load Supervisor (07). -/

namespace Sys2Proof.Machine

/-! ### CLEAR_LINE_FAULT -/

/-- The LSV tells an enabled line in FAULT that no OVERLOAD or STUCK remains latched: it enters OFF (R115, R129). -/
def releaseLine (n : LineId) (s : State) : State :=
  if s.lines[n].state = .fault ∧ s.loads[n].latched.forces = false then setLine n { s.lines[n] with state := .off } s
  else s

/-- The requested kinds whose condition is present are kept, the others leave the latched set (R131). -/
def clearKinds (n : LineId) (kinds : FaultSet) (s : State) : State :=
  setLoad n { s.loads[n] with latched := s.loads[n].latched.minus (kinds.minus (presentKinds s.loads[n])) } s

/-- The requested kinds that are kept: their condition is present (R131, log 27). -/
def keptKinds (n : LineId) (kinds : FaultSet) (s : State) : FaultSet := kinds.meet (presentKinds s.loads[n])

/-- Some requested kind is present, and so kept (R131). -/
def anyKept (f : FaultSet) : Bool := f.openLoad || f.overload || f.stuck

/-- CLEAR_LINE_FAULT (R131); a forcing that the line has not yet taken is taken first (log 18). -/
def runClearLineFault (l : LinkId) (p : List Byte) (s : State) : Answer :=
  withArgs (parseClearLineFault p) s fun (n, kinds) =>
    onLine l n s <|
      let s := takeForcing n s
      let kept := keptKinds n kinds s
      let s := releaseLine n (clearKinds n kinds s)
      if anyKept kept then ⟨.stillPresent, [kept.code, s.loads[n].latched.code], s⟩
      else ⟨.ok, [s.loads[n].latched.code], s⟩

/-! ### SET_SUPERVISION -/

/-- The sweep period and its timer (R132). -/
def setPeriod (ms : Nat) (s : State) : State :=
  setSweep { s.sweep with period := ms, periodTimer := if ms = 0 then none else some (afterMs s ms) } s

/-- The line entry is stored, and the line judged at once for a kind that became UNMASKED (R132). -/
def storeEntry (e : SupervisionEntry) (s : State) : State :=
  judge e.line (setLoad e.line { s.loads[e.line] with masked := e.masked, blankTime := e.blankTime } s)

/-- SET_SUPERVISION (R132). -/
def runSetSupervision (l : LinkId) (p : List Byte) (s : State) : Answer :=
  withArgs (parseSetSupervision p) s fun (ms, entry) =>
    match entry with
    | some e => onLine l e.line s <| done (storeEntry e (setPeriod ms s))
    | none => done (setPeriod ms s)

/-! ### START_SWEEP, QUERY_SWEEP -/

/-- START_SWEEP (R133). -/
def runStartSweep (l : LinkId) (p : List Byte) (s : State) : Answer :=
  withArgs (parseNone p) s fun _ =>
    if s.sweep.running then refuse .busy s
    else if s.inhibited then refuse .inhibited s
    else done (beginSweep (.link l) (setTransit { s.transit with inhibitLsv := false } s))

/-- The per-line results of QUERY_SWEEP (R138). -/
def Load.bytes (u : Load) : List Byte :=
  [u.masked.code] ++ le 2 u.blankTime ++ [u.latched.code, (presentKinds u).code]

/-- The results of QUERY_SWEEP (R138). The absence of the current line is 0FFH, without a flag bit of R186: DEDUCED, log 12. -/
def sweepResults (s : State) : List Byte :=
  [yesNo s.sweep.running, indexOrAbsent s.sweep.current, s.sweep.starter.code, yesNo s.sweep.aborted] ++
    s.sweep.results.toList.map SweepResult.code ++ le 2 s.sweep.period ++ [yesNo s.sweep.periodTimer.isSome] ++
    allLines.flatMap fun n => s.loads[n].bytes

/-- QUERY_SWEEP (R138). -/
def runQuerySweep (_ : LinkId) (p : List Byte) (s : State) : Answer :=
  withArgs (parseNone p) s fun _ => report (sweepResults s) s

/-! ### The rows of these commands -/

/-- Meaning of CLEAR_LINE_FAULT. -/
def execClearLineFault (l : LinkId) (seq : Byte) (args : List Byte) (s : State) : Host.Outcome State Fault Refusal :=
  .next (hostCommand runClearLineFault l seq (0x54 :: args) s)

/-- Meaning of SET_SUPERVISION. -/
def execSetSupervision (l : LinkId) (seq : Byte) (args : List Byte) (s : State) : Host.Outcome State Fault Refusal :=
  .next (hostCommand runSetSupervision l seq (0x55 :: args) s)

/-- Meaning of START_SWEEP. -/
def execStartSweep (l : LinkId) (seq : Byte) (args : List Byte) (s : State) : Host.Outcome State Fault Refusal :=
  .next (hostCommand runStartSweep l seq (0x56 :: args) s)

/-- Meaning of QUERY_SWEEP. -/
def execQuerySweep (l : LinkId) (seq : Byte) (args : List Byte) (s : State) : Host.Outcome State Fault Refusal :=
  .next (hostCommand runQuerySweep l seq (0x57 :: args) s)

end Sys2Proof.Machine
end

