-- ==== Sys2Proof/Machine/HostCue.lean ====
section
/-! DEFINITION. The commands of the cue schedules (03). A command of the CSU is taken after the evaluation event in
progress (R62, log 3). -/

namespace Sys2Proof.Machine

/-- The effective position of an ADD_CUE (R50). -/
def AddCueArgs.effective (a : AddCueArgs) (s : State) : Int := effectiveOf s a.track a.line a.nominal

/-- Steps 3 to 9 of R50: the refusal of an ADD_CUE, or none. -/
def admission (s : State) (a : AddCueArgs) : Option Status :=
  if s.lines[a.line].cfg.track ≠ a.track then some .wrongTrack
  else if s.tracks[a.track].state = .disabled then some .trackDisabled
  else if s.csu.schedules[a.track].any fun c => c.isHost a.id then some .idInUse
  else if !inRange (a.effective s) then some .outOfRange
  else if checksAhead s a.track && alreadyReached s a.track (a.effective s) then some .behind
  else if freeCount s = 0 then some .poolFull
  else if s.tracks[a.track].cfg.scheduleLimit ≤ cueCount s a.track then some .trackFull
  else none

/-- The record of an admitted ADD_CUE (R51). -/
def admittedCue (s : State) (a : AddCueArgs) : Cue where
  key := .host a.id
  line := a.line
  nominal := a.nominal
  effective := a.effective s
  profile := a.profile
  width := a.width
  tolerance := a.tolerance
  repetition := a.repetition
  index := 0
  notify := a.notify
  stamp := 0

/-- ADD_CUE (R49, R50, R51). -/
def runAddCue (l : LinkId) (p : List Byte) (s : State) : Answer :=
  withArgs (parseAddCue p) s fun a =>
    onTrack l a.track s <| onLine l a.line s <|
      let s := finishEvaluation s
      match admission s a with
      | some status => refuse status s
      | none =>
        let s := insertRecord a.track (admittedCue s a) s
        ⟨.ok, le 2 (freeCount s), s⟩

/-- CANCEL_CUE (R55). -/
def runCancelCue (l : LinkId) (p : List Byte) (s : State) : Answer :=
  withArgs (parseCancelCue p) s fun (k, id) =>
    onTrack l k s <|
      let s := finishEvaluation s
      if s.csu.schedules[k].any fun c => c.isHost id then
        let s := setSchedule k (s.csu.schedules[k].eraseP fun c => c.isHost id) s
        ⟨.ok, le 2 (freeCount s), s⟩
      else refuse .notFound s

/-- The cues that a FLUSH keeps (R56). -/
def flushKeeps (n : Option LineId) (c : Cue) : Bool :=
  match n with
  | some n => otherLineThan n c
  | none => false

/-- FLUSH (R56, R57). -/
def runFlush (l : LinkId) (p : List Byte) (s : State) : Answer :=
  withArgs (parseFlush p) s fun (k, n) =>
    onTrack l k s <|
      let s := finishEvaluation s
      ⟨.ok, le 2 (bulkCount k (flushKeeps n) s), bulkRemove k (flushKeeps n) s⟩

/-- The optional profile of a cue or template as one byte, zero when absent (R186). -/
def profileByte : Option ProfileId → Byte
  | some i => indexByte i
  | none => 0

/-- The pitch of a cue, zero without repeat (R59, R186). -/
def Cue.pitch (c : Cue) : Nat :=
  match c.repetition with
  | some r => r.pitch
  | none => 0

/-- The results of QUERY_CUE for a cue at a place (R59, log 12). -/
def cueResults (c : Cue) (place : Nat) : List Byte :=
  [c.key.origin] ++ c.key.bytes ++ [indexByte c.line] ++ leInt 6 c.nominal ++ leInt 6 c.effective ++
    [flagsByte [c.profile.isSome, c.width.isSome, c.tolerance.isSome, c.repetition.isSome], profileByte c.profile] ++
    le 4 (c.width.getD 0) ++ le 4 (c.tolerance.getD 0) ++ le 4 c.pitch ++ le 2 c.remaining ++ le 2 c.index ++
    [c.notify.code] ++ le 2 place

/-- The cue with a key nearest the head, with its place (R59). -/
def findCue (key : CueKey) : Nat → List Cue → Option (Cue × Nat)
  | _, [] => none
  | i, c :: cs => if c.key = key then some (c, i) else findCue key (i + 1) cs

/-- QUERY_CUE (R59). -/
def runQueryCue (_ : LinkId) (p : List Byte) (s : State) : Answer :=
  withArgs (parseQueryCue p) s fun (k, key) =>
    let s := finishEvaluation s
    match findCue key 0 s.csu.schedules[k] with
    | some (c, place) => report (cueResults c place) s
    | none => refuse .notFound s

/-- One entry of QUERY_SCHEDULE (R60). That origin and key stand in it as the origin code and the four bytes of Table 11-7,
without the choice bits of R186, is the model's choice (log 12). -/
def scheduleEntry (c : Cue) : List Byte :=
  [c.key.origin] ++ c.key.bytes ++ [indexByte c.line] ++ leInt 6 c.effective ++ le 2 c.index ++ le 2 c.remaining ++
    [flagsByte [c.tolerance.isSome]]

/-- QUERY_SCHEDULE (R60). -/
def runQuerySchedule (_ : LinkId) (p : List Byte) (s : State) : Answer :=
  withArgs (parseQuerySchedule p) s fun (k, start, n) =>
    let s := finishEvaluation s
    let entries := (s.csu.schedules[k].drop start).take n
    report (le 2 (cueCount s k) ++ le 2 start ++ [BitVec.ofNat 8 entries.length] ++ entries.flatMap scheduleEntry) s

/-- QUERY_POOL (R61). -/
def runQueryPool (_ : LinkId) (p : List Byte) (s : State) : Answer :=
  withArgs (parseNone p) s fun _ =>
    let s := finishEvaluation s
    report (le 2 (freeCount s) ++
      (allTracks.flatMap fun k => le 2 (cueCount s k) ++ le 2 s.tracks[k].cfg.scheduleLimit) ++
      allLines.flatMap fun n => le 2 (pendingCount s n)) s

/-! ### The rows of these commands -/

/-- Meaning of ADD_CUE. -/
def execAddCue (l : LinkId) (seq : Byte) (args : List Byte) (s : State) : Host.Outcome State Fault Refusal :=
  .next (hostCommand runAddCue l seq (0x30 :: args) s)

/-- Meaning of CANCEL_CUE. -/
def execCancelCue (l : LinkId) (seq : Byte) (args : List Byte) (s : State) : Host.Outcome State Fault Refusal :=
  .next (hostCommand runCancelCue l seq (0x31 :: args) s)

/-- Meaning of FLUSH. -/
def execFlush (l : LinkId) (seq : Byte) (args : List Byte) (s : State) : Host.Outcome State Fault Refusal :=
  .next (hostCommand runFlush l seq (0x32 :: args) s)

/-- Meaning of QUERY_CUE. -/
def execQueryCue (l : LinkId) (seq : Byte) (args : List Byte) (s : State) : Host.Outcome State Fault Refusal :=
  .next (hostCommand runQueryCue l seq (0x33 :: args) s)

/-- Meaning of QUERY_SCHEDULE. -/
def execQuerySchedule (l : LinkId) (seq : Byte) (args : List Byte) (s : State) : Host.Outcome State Fault Refusal :=
  .next (hostCommand runQuerySchedule l seq (0x34 :: args) s)

/-- Meaning of QUERY_POOL. -/
def execQueryPool (l : LinkId) (seq : Byte) (args : List Byte) (s : State) : Host.Outcome State Fault Refusal :=
  .next (hostCommand runQueryPool l seq (0x35 :: args) s)

end Sys2Proof.Machine
end

