-- ==== Sys2Proof/Machine/HostMark.lean ====
section
/-! DEFINITION. The commands of the mark units (05). -/

namespace Sys2Proof.Machine

/-- SET_MARK (R96). -/
def runSetMark (l : LinkId) (p : List Byte) (s : State) : Answer :=
  withArgs (parseSetMark p) s fun (k, c) => onTrack l k s <| done (setMark k { s.marks[k] with cfg := c } s)

/-- The mark unit armed from OFF (R82). -/
def armedMark (m : Mark) : Mark := { m with state := .armed, valid := false, substitutions := 0, loss := .absent }

/-- ARM_MARKS (R82). -/
def runArmMarks (l : LinkId) (p : List Byte) (s : State) : Answer :=
  withArgs (parseTrack p) s fun k =>
    onTrack l k s <|
      if s.tracks[k].state = .disabled then refuse .trackDisabled s
      else if s.marks[k].state = .off then done (setMark k (armedMark s.marks[k]) s)
      else done s

/-- DISARM_MARKS (R82). -/
def runDisarmMarks (l : LinkId) (p : List Byte) (s : State) : Answer :=
  withArgs (parseTrack p) s fun k => onTrack l k s <| done (markOff k s)

/-- SET_TEMPLATE (R94). -/
def runSetTemplate (l : LinkId) (p : List Byte) (s : State) : Answer :=
  withArgs (parseSetTemplate p) s fun (k, e, t) =>
    onTrack l k s <| onLine l t.line s <|
      if t.enabled ∧ s.lines[t.line].cfg.track ≠ k then refuse .wrongTrack s
      else done (setMark k { s.marks[k] with program := s.marks[k].program.set e t } s)

/-- One template entry as QUERY_MARKS carries it (R97, log 12). -/
def Template.bytes (t : Template) : List Byte :=
  [yesNo t.enabled] ++ le 4 t.offset ++
    [indexByte t.line, flagsByte [t.profile.isSome, t.width.isSome, t.tolerance.isSome], profileByte t.profile] ++
    le 4 (t.width.getD 0) ++ le 4 (t.tolerance.getD 0) ++ [t.notify.code]

/-- The results of QUERY_MARKS (R97, log 12). -/
def markResults (m : Mark) : List Byte :=
  [m.state.code, m.loss.code] ++ le 2 m.seq.toNat ++ leInt 6 m.last ++
    [yesNo m.valid, BitVec.ofNat 8 m.substitutions, markEdgeCode m.cfg.edge] ++ le 4 m.cfg.blank ++ le 4 m.cfg.pitch ++
    le 4 m.cfg.tolerance ++ [BitVec.ofNat 8 m.cfg.limit, yesNo m.cfg.reports] ++
    allEntries.flatMap fun e => m.program[e].bytes

/-- QUERY_MARKS (R97). -/
def runQueryMarks (_ : LinkId) (p : List Byte) (s : State) : Answer :=
  withArgs (parseTrack p) s fun k => report (markResults s.marks[k]) s

/-! ### The rows of these commands -/

/-- Meaning of SET_MARK. -/
def execSetMark (l : LinkId) (seq : Byte) (args : List Byte) (s : State) : Host.Outcome State Fault Refusal :=
  .next (hostCommand runSetMark l seq (0x40 :: args) s)

/-- Meaning of ARM_MARKS. -/
def execArmMarks (l : LinkId) (seq : Byte) (args : List Byte) (s : State) : Host.Outcome State Fault Refusal :=
  .next (hostCommand runArmMarks l seq (0x41 :: args) s)

/-- Meaning of DISARM_MARKS. -/
def execDisarmMarks (l : LinkId) (seq : Byte) (args : List Byte) (s : State) : Host.Outcome State Fault Refusal :=
  .next (hostCommand runDisarmMarks l seq (0x42 :: args) s)

/-- Meaning of SET_TEMPLATE. -/
def execSetTemplate (l : LinkId) (seq : Byte) (args : List Byte) (s : State) : Host.Outcome State Fault Refusal :=
  .next (hostCommand runSetTemplate l seq (0x43 :: args) s)

/-- Meaning of QUERY_MARKS. -/
def execQueryMarks (l : LinkId) (seq : Byte) (args : List Byte) (s : State) : Host.Outcome State Fault Refusal :=
  .next (hostCommand runQueryMarks l seq (0x44 :: args) s)

end Sys2Proof.Machine
end

