-- ==== Sys2Proof/Machine/HostTrack.lean ====
section
/-! DEFINITION. The commands of the tracks and their sources (01, 02). -/

namespace Sys2Proof.Machine

/-- SET_TRACK (R4, R5, R36). The cue count is the one held now, within an evaluation event in progress too: DEDUCED, log 30. -/
def runSetTrack (l : LinkId) (p : List Byte) (s : State) : Answer :=
  withArgs (parseSetTrack p) s fun (k, c) =>
    onTrack l k s <|
      if s.tracks[k].state ≠ .disabled ∧ changesDisabledOnly s.tracks[k].cfg c then refuse .trackEnabled s
      else if c.scheduleLimit < cueCount s k then refuse .badValue s
      else done (setTrack k (configuredTrack s.tracks[k] c) s)

/-- ENABLE_TRACK (R7). -/
def runEnableTrack (l : LinkId) (p : List Byte) (s : State) : Answer :=
  withArgs (parseTrack p) s fun k =>
    onTrack l k s <|
      if s.tracks[k].state ≠ .disabled then refuse .trackEnabled s
      else if s.tracks[k].cfg.source = .absent then refuse .wrongSource s
      else done (enableTrackUnit k s)

/-- DISABLE_TRACK (R14); what the track unit told the CSU and MUk before is taken first (log 4). -/
def runDisableTrack (l : LinkId) (p : List Byte) (s : State) : Answer :=
  withArgs (parseTrack p) s fun k =>
    onTrack l k s <|
      if s.tracks[k].state = .disabled then report (le 2 0) s
      else
        let s := settleNotices k s
        ⟨.ok, le 2 (cueCount s k), disableTrackUnit k s⟩

/-- PRESET (R15). -/
def runPreset (l : LinkId) (p : List Byte) (s : State) : Answer :=
  withArgs (parseTrackValue p) s fun (k, x) => onTrack l k s <| done (presetEffects k x s)

/-- The track unit after an accepted HOME: armed with a value, or disarmed keeping the value last armed (R16, R189). -/
def homedTrack (t : Track) (arm : Option Int) : Track :=
  match arm with
  | some x => { t with homeArmed := true, homeValue := x }
  | none => { t with homeArmed := false }

/-- HOME (R16). -/
def runHome (l : LinkId) (p : List Byte) (s : State) : Answer :=
  withArgs (parseHome p) s fun (k, arm) =>
    onTrack l k s <|
      if s.tracks[k].cfg.source ≠ .quad then refuse .wrongSource s
      else done (setTrack k (homedTrack s.tracks[k] arm) s)

/-- REBASE (R18); what the track unit told its neighbours before is taken first (log 4). -/
def runRebase (l : LinkId) (p : List Byte) (s : State) : Answer :=
  withArgs (parseTrackValue p) s fun (k, d) =>
    onTrack l k s <|
      let s := settleAllNotices k s
      if rebaseFits k d s then done (rebaseShift k d s) else refuse .outOfRange s

/-- The results of QUERY_TRACK (Table 11-10). -/
def trackResults (s : State) (k : TrackId) : List Byte :=
  let t := s.tracks[k]
  [indexByte k, t.state.code, t.cause.code] ++ leInt 6 t.pos ++ leInt 4 t.vel ++ le 2 (cueCount s k) ++
    le 2 t.cfg.scheduleLimit ++ [yesNo t.homeArmed] ++ leInt 6 t.homeValue ++ le 2 t.stats.noStart ++
    le 2 t.stats.badStop ++ le 2 t.stats.parity ++ le 2 t.stats.jump ++ le 2 t.stats.illegal ++
    le 2 t.stats.ignoredMarks

/-- QUERY_TRACK (R21, R189). The cue count is the one held now, within an evaluation event in progress too: DEDUCED, log 30. -/
def runQueryTrack (_ : LinkId) (p : List Byte) (s : State) : Answer :=
  withArgs (parseTrack p) s fun k => report (trackResults s k) s

/-- CLEAR_TRACK_FAULT (R13). -/
def runClearTrackFault (l : LinkId) (p : List Byte) (s : State) : Answer :=
  withArgs (parseTrack p) s fun k =>
    onTrack l k s <|
      match s.tracks[k].state with
      | .disabled => refuse .trackDisabled s
      | .settling => done s
      | .running => done s
      | .fault =>
        if persists s.tracks[k] then ⟨.stillPresent, [s.tracks[k].cause.code], s⟩ else done (clearTrackFaultUnit k s)

/-- SET_SIM (R35). -/
def runSetSim (l : LinkId) (p : List Byte) (s : State) : Answer :=
  withArgs (parseSetSim p) s fun (k, v) =>
    onTrack l k s <|
      if s.tracks[k].cfg.source ≠ .sim then refuse .wrongSource s
      else done (setTrack k { s.tracks[k] with simVel := v } s)

/-- CLEAR_STATS (R22). -/
def runClearStats (l : LinkId) (p : List Byte) (s : State) : Answer :=
  withArgs (parseTrack p) s fun k => onTrack l k s <| done (setTrack k { s.tracks[k] with stats := .zero } s)

/-! ### The rows of these commands -/

/-- Meaning of SET_TRACK. -/
def execSetTrack (l : LinkId) (seq : Byte) (args : List Byte) (s : State) : Host.Outcome State Fault Refusal :=
  .next (hostCommand runSetTrack l seq (0x20 :: args) s)

/-- Meaning of ENABLE_TRACK. -/
def execEnableTrack (l : LinkId) (seq : Byte) (args : List Byte) (s : State) : Host.Outcome State Fault Refusal :=
  .next (hostCommand runEnableTrack l seq (0x21 :: args) s)

/-- Meaning of DISABLE_TRACK. -/
def execDisableTrack (l : LinkId) (seq : Byte) (args : List Byte) (s : State) : Host.Outcome State Fault Refusal :=
  .next (hostCommand runDisableTrack l seq (0x22 :: args) s)

/-- Meaning of PRESET. -/
def execPreset (l : LinkId) (seq : Byte) (args : List Byte) (s : State) : Host.Outcome State Fault Refusal :=
  .next (hostCommand runPreset l seq (0x23 :: args) s)

/-- Meaning of HOME. -/
def execHome (l : LinkId) (seq : Byte) (args : List Byte) (s : State) : Host.Outcome State Fault Refusal :=
  .next (hostCommand runHome l seq (0x24 :: args) s)

/-- Meaning of REBASE. -/
def execRebase (l : LinkId) (seq : Byte) (args : List Byte) (s : State) : Host.Outcome State Fault Refusal :=
  .next (hostCommand runRebase l seq (0x25 :: args) s)

/-- Meaning of QUERY_TRACK. -/
def execQueryTrack (l : LinkId) (seq : Byte) (args : List Byte) (s : State) : Host.Outcome State Fault Refusal :=
  .next (hostCommand runQueryTrack l seq (0x26 :: args) s)

/-- Meaning of CLEAR_TRACK_FAULT. -/
def execClearTrackFault (l : LinkId) (seq : Byte) (args : List Byte) (s : State) : Host.Outcome State Fault Refusal :=
  .next (hostCommand runClearTrackFault l seq (0x27 :: args) s)

/-- Meaning of SET_SIM. -/
def execSetSim (l : LinkId) (seq : Byte) (args : List Byte) (s : State) : Host.Outcome State Fault Refusal :=
  .next (hostCommand runSetSim l seq (0x28 :: args) s)

/-- Meaning of CLEAR_STATS. -/
def execClearStats (l : LinkId) (seq : Byte) (args : List Byte) (s : State) : Host.Outcome State Fault Refusal :=
  .next (hostCommand runClearStats l seq (0x29 :: args) s)

end Sys2Proof.Machine
end

