-- ==== Sys2Proof/Machine/Dispatch.lean ====
section
/-! DEFINITION. One arm per command: the meaning of each row of the table. -/

namespace Sys2Proof.Machine

/-- What a command does (the opcode table). -/
def exec (i : Instr) (s : State) : Host.Outcome State Fault Refusal :=
  match i with
  | .powerOn => Sys2Proof.Machine.execPowerOn s
  | .resetn => Sys2Proof.Machine.execResetn s
  | .ping l seq args => Sys2Proof.Machine.execPing l seq args s
  | .identify l seq args => Sys2Proof.Machine.execIdentify l seq args s
  | .setLink l seq args => Sys2Proof.Machine.execSetLink l seq args s
  | .queryLink l seq args => Sys2Proof.Machine.execQueryLink l seq args s
  | .ackReports l seq args => Sys2Proof.Machine.execAckReports l seq args s
  | .setRoute l seq args => Sys2Proof.Machine.execSetRoute l seq args s
  | .reset l seq args => Sys2Proof.Machine.execReset l seq args s
  | .claim l seq args => Sys2Proof.Machine.execClaim l seq args s
  | .release l seq args => Sys2Proof.Machine.execRelease l seq args s
  | .queryClaims l seq args => Sys2Proof.Machine.execQueryClaims l seq args s
  | .setTrack l seq args => Sys2Proof.Machine.execSetTrack l seq args s
  | .enableTrack l seq args => Sys2Proof.Machine.execEnableTrack l seq args s
  | .disableTrack l seq args => Sys2Proof.Machine.execDisableTrack l seq args s
  | .preset l seq args => Sys2Proof.Machine.execPreset l seq args s
  | .home l seq args => Sys2Proof.Machine.execHome l seq args s
  | .rebase l seq args => Sys2Proof.Machine.execRebase l seq args s
  | .queryTrack l seq args => Sys2Proof.Machine.execQueryTrack l seq args s
  | .clearTrackFault l seq args => Sys2Proof.Machine.execClearTrackFault l seq args s
  | .setSim l seq args => Sys2Proof.Machine.execSetSim l seq args s
  | .clearStats l seq args => Sys2Proof.Machine.execClearStats l seq args s
  | .addCue l seq args => Sys2Proof.Machine.execAddCue l seq args s
  | .cancelCue l seq args => Sys2Proof.Machine.execCancelCue l seq args s
  | .flush l seq args => Sys2Proof.Machine.execFlush l seq args s
  | .queryCue l seq args => Sys2Proof.Machine.execQueryCue l seq args s
  | .querySchedule l seq args => Sys2Proof.Machine.execQuerySchedule l seq args s
  | .queryPool l seq args => Sys2Proof.Machine.execQueryPool l seq args s
  | .setMark l seq args => Sys2Proof.Machine.execSetMark l seq args s
  | .armMarks l seq args => Sys2Proof.Machine.execArmMarks l seq args s
  | .disarmMarks l seq args => Sys2Proof.Machine.execDisarmMarks l seq args s
  | .setTemplate l seq args => Sys2Proof.Machine.execSetTemplate l seq args s
  | .queryMarks l seq args => Sys2Proof.Machine.execQueryMarks l seq args s
  | .setLine l seq args => Sys2Proof.Machine.execSetLine l seq args s
  | .setProfile l seq args => Sys2Proof.Machine.execSetProfile l seq args s
  | .forceLine l seq args => Sys2Proof.Machine.execForceLine l seq args s
  | .queryLine l seq args => Sys2Proof.Machine.execQueryLine l seq args s
  | .clearLineFault l seq args => Sys2Proof.Machine.execClearLineFault l seq args s
  | .setSupervision l seq args => Sys2Proof.Machine.execSetSupervision l seq args s
  | .startSweep l seq args => Sys2Proof.Machine.execStartSweep l seq args s
  | .querySweep l seq args => Sys2Proof.Machine.execQuerySweep l seq args s
  | .unknownCommand l seq code args => Sys2Proof.Machine.execUnknownCommand l seq code args s
  | .duplicate l seq payload => Sys2Proof.Machine.execDuplicate l seq payload s
  | .completeFrame l => Sys2Proof.Machine.execCompleteFrame l s
  | .gapTruncation => Sys2Proof.Machine.execGapTruncation s
  | .cs1nRise => Sys2Proof.Machine.execCs1nRise s
  | .badLenDiscard l => Sys2Proof.Machine.execBadLenDiscard l s
  | .replySent l => Sys2Proof.Machine.execReplySent l s
  | .sentNotice l => Sys2Proof.Machine.execSentNotice l s
  | .pendingBaudRateApplied => Sys2Proof.Machine.execPendingBaudRateApplied s
  | .linkLoss l => Sys2Proof.Machine.execLinkLoss l s
  | .flushLossPolicy => Sys2Proof.Machine.execFlushLossPolicy s
  | .markUnitOffNotice k => Sys2Proof.Machine.execMarkUnitOffNotice k s
  | .lineLossPolicy n => Sys2Proof.Machine.execLineLossPolicy n s
  | .reportRecord l => Sys2Proof.Machine.execReportRecord l s
  | .resendExpiry l => Sys2Proof.Machine.execResendExpiry l s
  | .phaseChange k a b => Sys2Proof.Machine.execPhaseChange k a b s
  | .indexEdge k => Sys2Proof.Machine.execIndexEdge k s
  | .sampleTimerExpiry k => Sys2Proof.Machine.execSampleTimerExpiry k s
  | .transferCompletion k start raw parity stop => Sys2Proof.Machine.execTransferCompletion k start raw parity stop s
  | .updateIntervalExpiry k => Sys2Proof.Machine.execUpdateIntervalExpiry k s
  | .settleExpiry k => Sys2Proof.Machine.execSettleExpiry k s
  | .windowEnd k => Sys2Proof.Machine.execWindowEnd k s
  | .evaluationEvent k => Sys2Proof.Machine.execEvaluationEvent k s
  | .firingRequest n => Sys2Proof.Machine.execFiringRequest n s
  | .discontinuityNotice k => Sys2Proof.Machine.execDiscontinuityNotice k s
  | .resumeNotice k => Sys2Proof.Machine.execResumeNotice k s
  | .freezeNotice k => Sys2Proof.Machine.execFreezeNotice k s
  | .spawnRequest k => Sys2Proof.Machine.execSpawnRequest k s
  | .markEdge k edge => Sys2Proof.Machine.execMarkEdge k edge s
  | .markPositionChange k => Sys2Proof.Machine.execMarkPositionChange k s
  | .markFaultNotice k => Sys2Proof.Machine.execMarkFaultNotice k s
  | .markDiscontinuityNotice k => Sys2Proof.Machine.execMarkDiscontinuityNotice k s
  | .distancePulseEnd n => Sys2Proof.Machine.execDistancePulseEnd n s
  | .trackNoticeAtLine n => Sys2Proof.Machine.execTrackNoticeAtLine n s
  | .timePulseEnd n => Sys2Proof.Machine.execTimePulseEnd n s
  | .maxOnExpiry n => Sys2Proof.Machine.execMaxOnExpiry n s
  | .holdoffExpiry n => Sys2Proof.Machine.execHoldoffExpiry n s
  | .inhibitAssertion => Sys2Proof.Machine.execInhibitAssertion s
  | .inhibitRelease => Sys2Proof.Machine.execInhibitRelease s
  | .abortByInhibit => Sys2Proof.Machine.execAbortByInhibit s
  | .senseEvent n c => Sys2Proof.Machine.execSenseEvent n c s
  | .forcing n => Sys2Proof.Machine.execForcing n s
  | .driveViewNotice n => Sys2Proof.Machine.execDriveViewNotice n s
  | .blankingExpiry n => Sys2Proof.Machine.execBlankingExpiry n s
  | .periodTimerExpiry => Sys2Proof.Machine.execPeriodTimerExpiry s
  | .probeStart n => Sys2Proof.Machine.execProbeStart n s
  | .probeTimerExpiry => Sys2Proof.Machine.execProbeTimerExpiry s
  | .abandonment n => Sys2Proof.Machine.execAbandonment n s
  | .receivedByte l b => Sys2Proof.Machine.execReceivedByte l b s
  | .cs1nFall => Sys2Proof.Machine.execCs1nFall s

end Sys2Proof.Machine
end

