-- ==== Sys2Proof/Safety.lean ====
section
/-! DEFINITION. The terms in which statements about the part are made: what a command leaves of the links, when a link is ready for
a command, the choice of the next frame, the examination of received bytes, and the conditions that hold in every state the part
reaches (R30, R41, R47, R100, R115, R117, R143, R145, R148, R157, R173, R175). -/

namespace Sys2Proof.Machine

/-! ### What a statement compares -/

/-- Everything the part holds outside its link interfaces and report queues. -/
def State.device (s : State) : State :=
  { s with links := ⟨.reset, .reset⟩, queues := ⟨.reset .power, .reset .power⟩ }

/-- A link interface apart from what the choice of an outbound frame changes (R148). -/
def Link.apart (u : Link) : Link := { u with outbound := none, replyPending := false }

/-- A report queue apart from the standing of its records, which the choice of an outbound frame changes (R175). -/
def Queue.apart (q : Queue) : Queue := { q with records := q.records.map fun r => { r with standing := .waiting } }

/-- Link `l` has no current command and none buffered, and `seq` is not its last SEQ: a frame with this SEQ that arrives
becomes current and is executed (R146, R147). -/
def Ready (l : LinkId) (seq : Byte) (s : State) : Prop :=
  (linkOn s l).current = none ∧ (linkOn s l).inbound = [] ∧ (linkOn s l).lastSeq ≠ some seq

/-- `s` with link `l` UP, as the valid frame of a command has made it when the command is executed (R144, R163). -/
def heard (l : LinkId) (s : State) : State := setLink l { linkOn s l with state := .up } s

/-- The supervision timer after a valid-frame notice (R164). -/
def restarted (s : State) (u : Link) : Option Nat := if u.timeout = 0 then none else some (afterMs s u.timeout)

/-- The link interface that has just executed a command from `s` and answers it with a reply frame, apart from the choice
of the outbound frame (R144, R146, R164, R168, R181). -/
def answeredLink (s : State) (l : LinkId) (seq : Byte) (payload frame : List Byte) : Link :=
  { (linkOn s l).apart with
    state := .up, supervision := restarted s (linkOn s l)
    current := some ⟨⟨seq, payload, isLost s l⟩, true, false⟩
    lastSeq := some seq, storedReply := some frame
    holdReports := (linkOn s l).holdReports || isLost s l }

/-- The reply frame of a command (Table 8-1, R186). -/
def replyTo (seq : Byte) (payload : List Byte) (status : Status) (results : List Byte) : List Byte :=
  frameBytes 0x02 seq (payload.headD 0 :: status.code :: results)

/-- From `s` to `t` link `l` executed the command of this SEQ and payload and answered it with this status and these
results; the other link and both report queues are as they were, but that a LOST link resumes and frames may have been chosen
for sending (R146, R148, R168, R181). -/
structure Replied (l : LinkId) (seq : Byte) (payload : List Byte) (status : Status) (results : List Byte) (s t : State) :
    Prop where
  link : (linkOn t l).apart = answeredLink s l seq payload (replyTo seq payload status results)
  waits : (linkOn t l).replyPending = true ∨
    ∃ o, (linkOn t l).outbound = some o ∧ o.kind = .reply ∧ o.bytes = replyTo seq payload status results
  other : (linkOn t (otherLink l)).apart = (linkOn s (otherLink l)).apart
  queue : (queueOn t l).apart = (if isLost s l then (queueOn s l).resume else queueOn s l).apart
  otherQueue : (queueOn t (otherLink l)).apart = (queueOn s (otherLink l)).apart

/-- The command `i`, sent on link `l` with this SEQ and payload, completes from `s`: it is answered with this status and
these results, and leaves outside the links and queues what `u` holds there. -/
def Answered (i : Instr) (l : LinkId) (seq : Byte) (payload : List Byte) (status : Status) (results : List Byte)
    (s u : State) : Prop :=
  ∃ t, exec i s = .next t ∧ Replied l seq payload status results s t ∧ t.device = u.device

/-- `t` is `u` but that frames may have been chosen for sending: outside the links and queues it is the same, and in them
but for the outbound frame, the pending reply and the standing of the records (R148, R175). -/
structure Settled (u t : State) : Prop where
  links : ∀ l, (linkOn t l).apart = (linkOn u l).apart
  queues : ∀ l, (queueOn t l).apart = (queueOn u l).apart
  device : t.device = u.device

/-! ### The choice of the next outbound frame -/

/-- LINK0 begins no frame: a baud rate waits to be applied, and the reply it waited for is done (R152). -/
def rateWaits (l : LinkId) (s : State) : Prop := l = .link0 ∧ s.baud.pending.isSome = true ∧ s.baud.awaiting = none

/-- A queue offers no record: none is due for resending, and the window is full or none is WAITING (R175). -/
def offersNothing (q : Queue) : Prop :=
  (∀ x ∈ q.records, x.standing ≠ .inFlight true) ∧ (8 ≤ q.inFlight ∨ ∀ x ∈ q.records, x.standing ≠ .waiting)

/-- Link `l` sends no frame and begins a report if its queue offers one: no reply is pending, and neither a baud rate nor a reply
that resumes the link holds it back (R148, R152, R181). -/
def reportsNext (l : LinkId) (s : State) : Prop :=
  (linkOn s l).outbound = none ∧ ¬rateWaits l s ∧ (linkOn s l).replyPending = false ∧ (linkOn s l).holdReports = false

/-- The outbound frame of a record, with this many bytes sent (R148). -/
def reportOut (r : Record) (sent : Nat) : Option Outbound := some ⟨.report r.seq, frameBytes 0x03 r.seq r.report.payload, sent⟩

/-- `t` is `s` after link `l` has begun the frame that R148 and R175 give it, and nothing else: none while it sends one or none is
to be chosen, else a pending reply, else the oldest record due for resending, its mark cleared, else below the window the oldest
WAITING record, which becomes SENDING. That no report leaves before the reply that resumes a link is the model's choice (log 16).
-/
structure Begun (l : LinkId) (s t : State) : Prop where
  stays : (linkOn s l).outbound ≠ none ∨ rateWaits l s ∨
    (linkOn s l).replyPending = false ∧ ((linkOn s l).holdReports = true ∨ offersNothing (queueOn s l)) → t = s
  reply : ∀ f, (linkOn s l).outbound = none → ¬rateWaits l s → (linkOn s l).replyPending = true →
    (linkOn s l).storedReply = some f →
    t = setLink l { linkOn s l with replyPending := false, outbound := some ⟨.reply, f, 0⟩ } s
  resent : ∀ before r after, reportsNext l s → (queueOn s l).records = before ++ r :: after → r.standing = .inFlight true →
    (∀ x ∈ before, x.standing ≠ .inFlight true) →
    t = setQueue l { queueOn s l with records := before ++ { r with standing := .inFlight false } :: after }
      (setLink l { linkOn s l with outbound := reportOut r 0 } s)
  sent : ∀ before r after, reportsNext l s → (∀ x ∈ (queueOn s l).records, x.standing ≠ .inFlight true) →
    (queueOn s l).inFlight < 8 → (queueOn s l).records = before ++ r :: after → r.standing = .waiting →
    (∀ x ∈ before, x.standing ≠ .waiting) →
    t = setQueue l { queueOn s l with records := before ++ { r with standing := .sending } :: after }
      (setLink l { linkOn s l with outbound := reportOut r 0 } s)

/-! ### Frames found among received bytes -/

/-- What a receiver holds of a frame that is not yet complete: nothing, a SYNC, or a SYNC, a LEN from 1 to 200 and fewer bytes
than the LEN asks for (R143). -/
def Unfinished (bs : List Byte) : Prop :=
  bs = [] ∨ bs = [0xC3] ∨ ∃ (len : Byte) (rest : List Byte),
    bs = 0xC3 :: len :: rest ∧ 1 ≤ len.toNat ∧ len.toNat ≤ 200 ∧ rest.length < len.toNat + 4

/-- The bytes of a complete frame behind its SYNC: a LEN from 1 to 200, TYPE, SEQ, payload and the two CRC bytes (Table 8-1). -/
structure Framed (type seq : Byte) (payload bs : List Byte) : Prop where
  size : 1 ≤ payload.length ∧ payload.length ≤ 200
  bytes : ∃ a b, bs = BitVec.ofNat 8 payload.length :: type :: seq :: payload ++ [a, b]

/-- The CRC bytes of a complete frame are right and its TYPE is 01H (R144, checks 1 and 2). -/
def Valid (type seq : Byte) (payload bs : List Byte) : Prop :=
  bs.drop (payload.length + 3) = crcBytes (BitVec.ofNat 8 payload.length :: type :: seq :: payload) ∧ type = 1

/-- What a valid-frame notice makes of link l and its queue: UP, its timer restarted, a LOST link resumed (R163, R164, R168). -/
def noticed (l : LinkId) (u : Link) (s : State) : State :=
  setQueue l (if isLost s l then (queueOn s l).resume else queueOn s l)
    (setLink l { u with state := .up, supervision := restarted s (linkOn s l) } s)

/-- A valid frame behind the frames waiting, the oldest becoming current when none is; a reply waits for the frame that resumes the
link (R144, R146, R181). -/
def buffered (u : Link) (f : Frame) : Link :=
  match u.current, u.inbound ++ [f] with
  | none, g :: rest => { u with current := some ⟨g, false, false⟩, inbound := rest, holdReports := u.holdReports || f.resumes }
  | _, waiting => { u with inbound := waiting, holdReports := u.holdReports || f.resumes }

/-- The examination in order of bytes that stood behind a discarded SYNC, or in the receiver, takes link `l` from `s` to the
second state (R143, R144). A byte other than SYNC is passed over. At a SYNC a LEN out of range, a wrong CRC or TYPE, or a full
buffer counts its statistic and the examination goes on behind that SYNC; a frame that is buffered is passed over whole. A frame
that the bytes do not complete stays in the receiver; in the rescan of a truncation it is dropped without a count, and the
examination goes on behind its SYNC (R145). -/
inductive Rescans (l : LinkId) (truncated : Bool) : List Byte → State → State → Prop
  | over (s : State) : Rescans l truncated [] s (setLink l { linkOn s l with receiver := [] } s)
  | passed (b : Byte) (rest : List Byte) (s t : State) : b ≠ 0xC3 → Rescans l truncated rest s t → Rescans l truncated (b :: rest) s t
  | badLen (len : Byte) (rest : List Byte) (s t : State) : len.toNat = 0 ∨ 200 < len.toNat →
    Rescans l truncated (len :: rest) (setLink l { linkOn s l with badFrames := countUp (linkOn s l).badFrames } s) t →
    Rescans l truncated (0xC3 :: len :: rest) s t
  | kept (rest : List Byte) (s : State) : truncated = false → Unfinished (0xC3 :: rest) →
    Rescans l truncated (0xC3 :: rest) s (setLink l { linkOn s l with receiver := 0xC3 :: rest } s)
  | dropped (rest : List Byte) (s t : State) : truncated = true → Unfinished (0xC3 :: rest) → Rescans l truncated rest s t →
    Rescans l truncated (0xC3 :: rest) s t
  | bad (type seq : Byte) (payload bs after : List Byte) (s t : State) : Framed type seq payload bs → ¬Valid type seq payload bs →
    Rescans l truncated (bs ++ after) (setLink l { linkOn s l with badFrames := countUp (linkOn s l).badFrames } s) t →
    Rescans l truncated (0xC3 :: bs ++ after) s t
  | taken (type seq : Byte) (payload bs after : List Byte) (s t : State) : Framed type seq payload bs → Valid type seq payload bs →
    (linkOn s l).inbound.length < 2 →
    Rescans l truncated after (noticed l (buffered (linkOn s l) ⟨seq, payload, isLost s l⟩) s) t →
    Rescans l truncated (0xC3 :: bs ++ after) s t
  | full (type seq : Byte) (payload bs after : List Byte) (s t : State) : Framed type seq payload bs → Valid type seq payload bs →
    2 ≤ (linkOn s l).inbound.length →
    Rescans l truncated (bs ++ after)
      (noticed l { linkOn s l with discarded := countUp (linkOn s l).discarded } s) t →
    Rescans l truncated (0xC3 :: bs ++ after) s t

/-! ### The resets -/

/-- The outbound frame of link `l` is the reply of an accepted RESET, sent to its last byte (R156). -/
def resetReplySent (l : LinkId) (s : State) : Prop :=
  (linkOn s l).resetWait = true ∧
    ∃ o, (linkOn s l).outbound = some o ∧ o.kind = .reply ∧ fullySent l o = true

/-- Link `l` is UP with a running supervision timer, and the reply of its accepted RESET is pending and can not begin before the
loss: LINK1 begins no frame by itself, and LINK0 none inside another or while a baud rate waits (R150, R152, R156). -/
def resetReplyDropped (l : LinkId) (s : State) : Prop :=
  (linkOn s l).state = .up ∧ (linkOn s l).supervision ≠ none ∧ (linkOn s l).resetWait = true ∧
    (linkOn s l).replyPending = true ∧ (l = .link1 ∨ (linkOn s l).outbound ≠ none ∨ baudHolds s l = true)

/-- The current command of link `l` is a RESET with this SEQ that was not yet executed when the link was lost, and no entry of the
other link refuses it: its reply is dropped as it is formed (R150, R156). -/
def resetOrphaned (l : LinkId) (seq : Byte) (s : State) : Prop :=
  ∃ c, (linkOn s l).current = some c ∧ c.frame.seq = seq ∧ c.frame.payload = [0x07] ∧ c.orphan = true ∧ c.executed = false ∧
    ∀ r : Fin 20, s.claims[r].owner ≠ some (otherLink l)

/-- `t` is what a reset of `s` with this cause leaves: a POWER_ON, a RESETN, or the end of the reply of an accepted RESET, sent,
dropped at the loss of its link, or dropped as it is formed after the loss (R6, R150, R156). That the loss then ends with the
reset is the model's choice (log 28). -/
def ResetsTo (cause : ResetCause) (s t : State) : Prop :=
  match cause with
  | .power => exec .powerOn s = .next t
  | .pin => exec .resetn s = .next t
  | .command => ∃ l, resetReplySent l s ∧ exec (.replySent l) s = .next t ∨
      resetReplyDropped l s ∧ exec (.linkLoss l) s = .next t ∨
      ∃ seq, resetOrphaned l seq s ∧ exec (.reset l seq []) s = .next t

/-! ### What a track unit tells its neighbours (Table 1-4) -/

/-- The notices to the lines after track unit k has given `m` to every line assigned to it whose active pulse is in DISTANCE
mode (R3, R11, R15). -/
def toldLines (k : TrackId) (m : LineNotice) (s : State) : Vector (List LineNotice) 16 :=
  Vector.ofFn fun n => s.transit.toLine[n] ++ if hasDistancePulse s.lines[n] k then [m] else []

/-- `s` with its position change to `x` offered: an evaluation event for the CSU, a position change for MUk, and the pulse end
test for the DISTANCE pulses of track k (R3, R62). -/
def offered (k : TrackId) (x : Int) (s : State) : State :=
  let t := s.tracks[k]
  { s with transit := { s.transit with
      toCsu := s.transit.toCsu.set k (s.transit.toCsu[k] ++ [.change ⟨x, t.cfg.travel, t.state, t.vel⟩])
      toMark := s.transit.toMark.set k (s.transit.toMark[k] ++ [.change x])
      toLine := toldLines k (.change k x) s } }

/-- `t` is `s` after track unit k entered FAULT with this cause: state, cause and settle timer; TRACK_STATE raised; the CSU, MUk
and the DISTANCE pulses told; nothing else (R11). -/
def Faulted (k : TrackId) (cause : TrackCause) (s t : State) : Prop :=
  let u := raiseRouted (routeOwned s (trackOwner s k)) (.trackState k .fault cause)
    (setTrack k { s.tracks[k] with state := .fault, cause := cause, settleTimer := none } s)
  t = { u with transit := { u.transit with
          toCsu := s.transit.toCsu.set k (s.transit.toCsu[k] ++ [.freeze])
          toMark := s.transit.toMark.set k (s.transit.toMark[k] ++ [.fault])
          toLine := toldLines k (.truncate k .track) s } }

/-- `t` is `s` after track unit k told its neighbours of a discontinuity at `x`, and nothing else (R15). -/
def Discontinued (k : TrackId) (x : Int) (s t : State) : Prop :=
  t = { s with transit := { s.transit with
          toCsu := s.transit.toCsu.set k (s.transit.toCsu[k] ++ [.discontinuity x])
          toMark := s.transit.toMark.set k (s.transit.toMark[k] ++ [.discontinuity])
          toLine := toldLines k (.truncate k .discontinuity) s } }

/-! ### Conditions of every reached state -/

/-- A line unit is sound: DISABLED exactly when it is not enabled; an active pulse exactly in ON; a running holdoff timer
exactly in HOLDOFF; neither ON nor TEST while the inhibit condition is ASSERTED (R100, R111, R113, R117). -/
def lineSound (inhibited : Bool) (u : Line) : Bool :=
  (u.cfg.enabled == (u.state != .disabled)) && (u.pulse.isSome == (u.state == .on)) &&
    (u.holdoffTimer.isSome == (u.state == .holdoff)) && !(inhibited && (u.state == .on || u.state == .test))

/-- Every line unit is sound. -/
def LinesSound (s : State) : Prop := ∀ n : LineId, lineSound s.inhibited s.lines[n] = true

/-- A track unit is sound: the settle timer runs exactly in SETTLING, the velocity window exactly while enabled, the sample timer
exactly while enabled with source SAMPLED, and a transfer is under way only while it runs; a fault cause stands exactly in FAULT,
and a DISABLED track has velocity 0 (Table 1-1, R6, R8, R11, R14, R19, R29). -/
def trackSound (t : Track) : Bool :=
  (t.settleTimer.isSome == (t.state == .settling)) && (t.window.isSome == (t.state != .disabled)) &&
    (t.sampleTimer.isSome == (t.state != .disabled && t.cfg.source == .sampled)) && (!t.transfer || t.sampleTimer.isSome) &&
    ((t.cause != .absent) == (t.state == .fault)) && (t.state != .disabled || t.vel == 0)

/-- Every track unit is sound, and a DISABLED track has an empty schedule and its mark unit OFF (R14, R47, R93). -/
def TracksSound (s : State) : Prop :=
  ∀ k : TrackId, trackSound s.tracks[k] = true ∧
    (s.tracks[k].state = .disabled → s.csu.schedules[k] = [] ∧ s.marks[k].state = .off)

/-- The part keeps within its sizes: at most 512 cues, of a track at most its schedule limit, and at most 64 records in a
report queue, which accepts records exactly while its link is not LOST, and is empty while it is (R4, R41, R44, R173). -/
def SizesSound (s : State) : Prop :=
  pendingCues s ≤ Config.poolSize ∧ (∀ k : TrackId, cueCount s k ≤ s.tracks[k].cfg.scheduleLimit) ∧
    ∀ l : LinkId, (queueOn s l).records.length ≤ Config.queueSize ∧
      (queueOn s l).accepting = !isLost s l ∧ (isLost s l = true → (queueOn s l).records = [])

/-- Claims are sound: a link that is not UP owns no entry, and an entry without owner holds KEEP (R157). -/
def ClaimsSound (s : State) : Prop :=
  ∀ r : Fin 20, (∀ l, s.claims[r].owner = some l → (linkOn s l).state = .up) ∧
    (s.claims[r].owner = none → s.claims[r].policy = .keep)

end Sys2Proof.Machine
end

