-- ==== Sys2Proof/Certificates/Slice0/Obligations.lean ====
section
/-! DEFINITION. The statements about the VKT-416, for the provers. -/

open Sys2Proof Sys2Proof.Machine

/-! ### The step and the resets -/

/-- A step takes the command at the front of the queue and runs it on the state with the rest of the queue; with none
waiting it lets 1 us of model time pass (the idle tick is the model's choice, log 6). -/
def Obligations.StepRunsTheFrontCommand : Prop :=
  (∀ (c : Instr) (rest : List Instr) (s : State), s.pending = c :: rest → step s = exec c { s with pending := rest }) ∧
  ∀ s : State, s.pending = [] → step s = .next { s with now := s.now + 1 }

/-- POWER_ON and RESETN complete from every state, and every reset leaves each track unit at the values of R6 and R38, with an
empty schedule, its mark unit OFF, and TAk an input (R24). -/
def Obligations.ResetLeavesTracksAtRest : Prop :=
  (∀ s : State, (∃ t, exec .powerOn s = .next t) ∧ ∃ t, exec .resetn s = .next t) ∧
  ∀ (cause : ResetCause) (s t : State), ResetsTo cause s t → ∀ k : TrackId,
    t.tracks[k] =
      { cfg := { source := .absent, travel := .forward, sense := .normal, settleTime := 20, window := 10, overspeed := 0,
                 errorLimit := 3, jumpLimit := 256, sampleWidth := 24, samplePeriod := 250, scheduleLimit := 128 }
        state := .disabled, cause := .absent, clamp := none, pos := 0, vel := 0, settleTimer := none, window := none
        rejects := 0, windowIllegal := 0, lastIllegal := 0, homeArmed := false, homeValue := 0, simVel := 0
        stats := ⟨0, 0, 0, 0, 0, 0⟩, reference := none, sampleTimer := none, transfer := false, rPrev := none
        framingValid := true, updateTimer := none, remainder := 0 } ∧
    t.csu.schedules[k] = [] ∧ t.marks[k].state = .off ∧ taPin t k = none

/-- Every reset leaves the CSU and the mark units at the values of R48, R80 and R94: nothing pending, 512 records free, stamp
0, every schedule EVALUATING, no evaluation event; every mark unit OFF with its settings and an all-disabled program. -/
def Obligations.ResetLeavesSchedulesAndMarksEmpty : Prop :=
  ∀ (cause : ResetCause) (s t : State), ResetsTo cause s t →
    freeCount t = 512 ∧ t.csu.stamp = 0 ∧ t.csu.evaluation = none ∧
    (∀ k : TrackId, t.csu.schedules[k] = [] ∧ t.csu.modes[k] = .evaluating) ∧ (∀ n : LineId, pendingCount t n = 0) ∧
    ∀ k : TrackId,
      t.marks[k].state = .off ∧ t.marks[k].last = 0 ∧ t.marks[k].valid = false ∧ t.marks[k].seq = 0 ∧
      t.marks[k].substitutions = 0 ∧ t.marks[k].loss = .absent ∧ t.marks[k].cfg = ⟨.rising, 0, 0, 0, 2, false⟩ ∧
      ∀ e : EntryId, t.marks[k].program[e] = ⟨false, 0, 0, none, none, none, .silent⟩

/-- Every reset leaves each line DISABLED at the values of R100 with its pin low, and each profile at the values of R103; the LSV
at the values of R123 and R133, with STUCK latched at once for a stage that presents STUCK_ON; and the inhibit condition at the
level that INH presents (R117). -/
def Obligations.ResetLeavesLinesDisabled : Prop :=
  ∀ (cause : ResetCause) (s t : State), ResetsTo cause s t →
    (∀ n : LineId, t.lines[n] =
      { cfg := { enabled := false, track := 0, profile := 0, offset := 0, policy := .reject, polarity := .activeHigh }
        state := .disabled, pulse := none, holdoffTimer := none } ∧ outPin t n = false) ∧
    (∀ i : ProfileId, t.profiles[i] = { mode := .time, width := 1000, holdoff := 0, minSpeed := 0, maxOn := 0 }) ∧
    t.inhibited = s.pins.inhibit ∧
    (∀ n : LineId, t.loads[n] =
      { masked := ⟨false, false, false⟩, blankTime := 100
        latched := ⟨false, false, s.pins.sense[n] == .stuckOn⟩
        sense := s.pins.sense[n], view := .inactive, blanking := .stopped }) ∧
    t.sweep =
      { running := false, current := none, starter := .absent, results := Vector.replicate 16 .notRun, aborted := false
        period := 0, periodTimer := none, probeTimer := none, request := none, forced := 0 }

/-- Every reset leaves both links IDLE at the values of R140, no claim (R157), LINK0 as the default report link at 115,200 baud,
and in each report queue one RESET record with report SEQ 0 and the cause of the reset (R173). SDO1 is undriven while LINK1 is
deselected and low while it is selected, and ATTN1 is asserted by the RESET record. LINK0 begins the RESET record at once after a
RESET command; a POWER_ON or RESETN leaves TXD0 high until the next event of the links (log 14). Behind the RESET record each
queue is handed the INHIBIT report of an INH pin found high (R117), and that of LINK0 the LINE_FAULT report of each stage found
STUCK_ON (R123), in the order of log 10; nothing else is on its way but the notice of that assertion to the LSV. That this holds
of a reset made at a link loss too, with no loss notice and no LINK_LOST behind it, is the model's choice (log 28). -/
def Obligations.ResetLeavesLinksIdle : Prop :=
  ∀ (cause : ResetCause) (s t : State), ResetsTo cause s t →
    t.route = .link0 ∧ t.baud = ⟨.b115200, none, none⟩ ∧
    (∀ r : Fin 20, t.claims[r] = ⟨none, .keep⟩) ∧
    sdo1 t = (if s.pins.selected then some false else none) ∧ attn1 t = true ∧ (cause ≠ .command → txd0 t = some true) ∧
    (∀ l : LinkId,
      (linkOn t l).apart =
        { state := .idle, receiver := [], inbound := [], current := none, lastSeq := none, storedReply := none
          replyPending := false, outbound := none, badFrames := 0, truncated := 0, discarded := 0, duplicates := 0
          timeout := 0, resend := 100, supervision := none, holdReports := false, resetWait := false
          syncOut := false } ∧
      (queueOn t l).apart =
        { records := [⟨.reset cause, 0, .waiting⟩], nextSeq := 1, resendTimer := none, dropped := 0, accepting := true }) ∧
    (linkOn t .link1).outbound = none ∧
    (linkOn t .link0).outbound = (if cause = .command then reportOut ⟨.reset cause, 0, .sending⟩ 0 else none) ∧
    t.transit = { Transit.empty with
      inhibitLsv := s.pins.inhibit
      toQueue :=
        let stuck := (List.finRange 16).filter fun n => s.pins.sense[n] == .stuckOn
        let found : List Report := if s.pins.inhibit then [.inhibit true] else []
        ⟨found ++ stuck.map fun n => .lineFault n .stuck, found⟩ }

/-! ### Position sources and track units -/

/-- The up-counting entries of Table 2-2: a reference and an observed pair, phase A first, that count +1. -/
def upEdges : List (PhasePair × PhasePair) :=
  [(⟨false, false⟩, ⟨true, false⟩), (⟨true, false⟩, ⟨true, true⟩), (⟨true, true⟩, ⟨false, true⟩),
   (⟨false, true⟩, ⟨false, false⟩)]

/-- A legal edge of an enabled QUAD track moves the position by one count, by Table 2-2 and the count sense, and makes the
observed pair the reference; in SETTLING and RUNNING the change is offered, in FAULT to nobody; nothing else changes. -/
def Obligations.LegalEdgeCountsOne : Prop :=
  ∀ (s : State) (k : TrackId) (r p : PhasePair) (d : Int),
    s.tracks[k].state ≠ .disabled → s.tracks[k].cfg.source = .quad → s.tracks[k].reference = some r →
    ((r, p) ∈ upEdges ∧ d = 1 ∨ (p, r) ∈ upEdges ∧ d = -1) →
    let x := s.tracks[k].pos + (if s.tracks[k].cfg.sense = .normal then d else -d)
    inRange x = true →
    let u := setTrack k { s.tracks[k] with pos := x, reference := some p } (setPhasePin k p s)
    (s.tracks[k].state = .fault → exec (.phaseChange k p.a p.b) s = .next u) ∧
    (s.tracks[k].state ≠ .fault → exec (.phaseChange k p.a p.b) s = .next (offered k x u))

/-- `s` after track unit k, otherwise as in `v`, has gone from SETTLING to RUNNING and reported it with cause SETTLED (R8). -/
def settled (k : TrackId) (v : Track) (s : State) : State :=
  raiseRouted (routeOwned s (trackOwner s k)) (.trackState k .running .settled)
    (setTrack k { v with state := .running, settleTimer := none } s)

/-- An illegal transition of an enabled QUAD track moves nothing, makes the observed pair the reference and advances both
counts; in FAULT and below the limit in RUNNING that is all, below the limit in SETTLING the settle timer starts anew, or with a
settle time of 0 the track enters RUNNING with cause SETTLED, and at the limit it enters FAULT with cause QUAD (R8, R9, R26). -/
def Obligations.IllegalTransitionIsAnError : Prop :=
  ∀ (s : State) (k : TrackId) (r p : PhasePair),
    s.tracks[k].state ≠ .disabled → s.tracks[k].cfg.source = .quad → s.tracks[k].reference = some r →
    p.a ≠ r.a → p.b ≠ r.b →
    let t := s.tracks[k]
    let n := countUp t.windowIllegal
    let v : Track := { t with
      reference := some p, windowIllegal := n, stats := { t.stats with illegal := countUp t.stats.illegal } }
    let u := setTrack k v (setPhasePin k p s)
    (t.state = .fault ∨ t.state = .running ∧ n < t.cfg.errorLimit → exec (.phaseChange k p.a p.b) s = .next u) ∧
    (t.state = .settling → n < t.cfg.errorLimit → 0 < t.cfg.settleTime →
      exec (.phaseChange k p.a p.b) s =
        .next (setTrack k { v with settleTimer := some (s.now + t.cfg.settleTime * 1000) } u)) ∧
    (t.state = .settling → n < t.cfg.errorLimit → t.cfg.settleTime = 0 →
      exec (.phaseChange k p.a p.b) s = .next (settled k v u)) ∧
    (t.state ≠ .fault → t.cfg.errorLimit ≤ n → ∃ w, exec (.phaseChange k p.a p.b) s = .next w ∧ Faulted k .quad u w)

/-- A rising edge on TZk with home armed is a HOME capture: the position takes the armed value, home is disarmed and HOMED
is raised; in FAULT only the velocity window restarts, in SETTLING and RUNNING the effects of a PRESET follow, with TRACK_STATE
when the state changed (R17, R28). In DISABLED, and with a source other than QUAD, phase changes and index edges change nothing
but the level of the pins (R24, R27, R28). -/
def Obligations.IndexEdgeCapturesHome : Prop :=
  (∀ (s : State) (k : TrackId) (a b : Bool), s.tracks[k].state = .disabled ∨ s.tracks[k].cfg.source ≠ .quad →
    exec (.phaseChange k a b) s = .next (setPhasePin k ⟨a, b⟩ s) ∧ exec (.indexEdge k) s = .next s) ∧
  ∀ (s : State) (k : TrackId), s.tracks[k].state ≠ .disabled → s.tracks[k].cfg.source = .quad →
    (s.tracks[k].homeArmed = false → exec (.indexEdge k) s = .next s) ∧
    (s.tracks[k].homeArmed = true →
      let x := s.tracks[k].homeValue
      let v : Track := { s.tracks[k] with pos := x, homeArmed := false, window := some ⟨x, s.tracks[k].cfg.window⟩ }
      let q := routeOwned s (trackOwner s k)
      (s.tracks[k].state = .fault → exec (.indexEdge k) s = .next (raiseRouted q (.homed k x) (setTrack k v s))) ∧
      (s.tracks[k].state ≠ .fault → ∃ w, exec (.indexEdge k) s = .next w ∧
        let y : TrackState := if s.tracks[k].cfg.settleTime = 0 then .running else .settling
        let u := raiseRouted q (.homed k x) (setTrack k { v with
          state := y, settleTimer := if s.tracks[k].cfg.settleTime = 0 then none
            else some (s.now + s.tracks[k].cfg.settleTime * 1000) } s)
        Discontinued k x (if y = s.tracks[k].state then u else raiseRouted q (.trackState k y .discontinuity) u) w))

/-- A transfer that fails framing is rejected with the reason of the first failing check - start bit 0, stop bit 1, parity
odd -, sets the latest-framing flag to FAILED and counts; at the error limit it faults a SETTLING or RUNNING track with cause
SAMPLE, below it restarts the settle timer of a SETTLING one, or takes it to RUNNING with a settle time of 0 (R8, R9, R30). -/
def Obligations.BadFramingIsRejected : Prop :=
  ∀ (s : State) (k : TrackId) (start parity stop : Bool) (raw : BitVec 32) (reason : Rejection),
    s.tracks[k].transfer = true → s.tracks[k].state ≠ .disabled →
    (start = false ∧ reason = .noStart ∨ start = true ∧ stop = true ∧ reason = .badStop ∨
      start = true ∧ stop = false ∧ reason = .parity ∧
        (onesBelow s.tracks[k].cfg.sampleWidth raw.toNat + (if parity then 1 else 0)) % 2 = 1) →
    let t := s.tracks[k]
    let n := countUp t.rejects
    let v : Track := { t with
      transfer := false, rejects := n, framingValid := false
      stats := match reason with
        | .noStart => { t.stats with noStart := countUp t.stats.noStart }
        | .badStop => { t.stats with badStop := countUp t.stats.badStop }
        | .parity => { t.stats with parity := countUp t.stats.parity }
        | .jump => t.stats }
    let u := setTrack k v s
    let i := Instr.transferCompletion k start raw parity stop
    (t.state = .fault ∨ t.state = .running ∧ n < t.cfg.errorLimit → exec i s = .next u) ∧
    (t.state = .settling → n < t.cfg.errorLimit → 0 < t.cfg.settleTime →
      exec i s = .next (setTrack k { v with settleTimer := some (s.now + t.cfg.settleTime * 1000) } u)) ∧
    (t.state = .settling → n < t.cfg.errorLimit → t.cfg.settleTime = 0 → exec i s = .next (settled k v u)) ∧
    (t.state ≠ .fault → t.cfg.errorLimit ≤ n → ∃ w, exec i s = .next w ∧ Faulted k .sample u w)

/-- A framing-valid sample is acquired when none is held; else it is unwrapped the short way round the circle of W bits, rejected
with JUMP above the jump limit outside FAULT - a source error, with the effects of R8 and R9 in SETTLING and at the error limit -,
and otherwise accepted: the position moves by the delta with the count sense, offered in SETTLING and RUNNING. The completion ends
the transfer, and TAk rests high (R24, R29, R31, R32, R33). -/
def Obligations.ValidSampleIsUnwrapped : Prop :=
  ∀ (s : State) (k : TrackId) (parity : Bool) (raw : BitVec 32),
    s.tracks[k].transfer = true → s.tracks[k].state ≠ .disabled → 1 ≤ s.tracks[k].cfg.sampleWidth →
    (onesBelow s.tracks[k].cfg.sampleWidth raw.toNat + (if parity then 1 else 0)) % 2 = 0 →
    let t := s.tracks[k]
    let w := t.cfg.sampleWidth
    let r := raw.toNat % 2 ^ w
    let v : Track := { t with transfer := false, rPrev := some r, rejects := 0, framingValid := true }
    let i := Instr.transferCompletion k true raw parity false
    (t.rPrev = none → exec i s = .next (setTrack k v s)) ∧
    (∀ y, t.cfg.source = .sampled → exec i s = .next y → taPin y k = some true) ∧
    ∀ (prev : Nat) (d : Int), t.rPrev = some prev → -(2 ^ (w - 1) : Int) ≤ d → d < 2 ^ (w - 1) →
      (d - ((r : Int) - prev)) % 2 ^ w = 0 →
      let x := t.pos + (if t.cfg.sense = .normal then d else -d)
      let n := countUp t.rejects
      let j : Track := { t with
        transfer := false, rejects := n, framingValid := true, stats := { t.stats with jump := countUp t.stats.jump } }
      let u := setTrack k j s
      (t.cfg.jumpLimit < d.natAbs →
        (t.state = .running → n < t.cfg.errorLimit → exec i s = .next u) ∧
        (t.state = .settling → n < t.cfg.errorLimit → 0 < t.cfg.settleTime →
          exec i s = .next (setTrack k { j with settleTimer := some (s.now + t.cfg.settleTime * 1000) } u)) ∧
        (t.state = .settling → n < t.cfg.errorLimit → t.cfg.settleTime = 0 → exec i s = .next (settled k j u)) ∧
        (t.state ≠ .fault → t.cfg.errorLimit ≤ n → ∃ w, exec i s = .next w ∧ Faulted k .sample u w)) ∧
      (inRange x = true → t.state = .fault → exec i s = .next (setTrack k { v with pos := x } s)) ∧
      (inRange x = true → t.state ≠ .fault → d.natAbs ≤ t.cfg.jumpLimit → d ≠ 0 →
        exec i s = .next (offered k x (setTrack k { v with pos := x } s))) ∧
      (t.state ≠ .fault → d = 0 → exec i s = .next (setTrack k v s))

/-- The update interval adds the simulation velocity to the remainder, delivers the whole counts, truncated toward zero, and
keeps the rest; the count sense does not apply (R2, R34). -/
def Obligations.SimulationDeliversWholeCounts : Prop :=
  ∀ (s : State) (k : TrackId) (n r : Int), s.tracks[k].updateTimer.isSome = true → s.tracks[k].state ≠ .disabled →
    s.tracks[k].remainder + s.tracks[k].simVel = n * 100000 + r →
    -100000 < r → r < 100000 → (0 < n → 0 ≤ r) → (n < 0 → r ≤ 0) →
    inRange (s.tracks[k].pos + n) = true →
    let x := s.tracks[k].pos + n
    let u := setTrack k { s.tracks[k] with pos := x, remainder := r, updateTimer := some (s.now + 10) } s
    (n = 0 ∨ s.tracks[k].state = .fault → exec (.updateIntervalExpiry k) s = .next u) ∧
    (n ≠ 0 → s.tracks[k].state ≠ .fault → exec (.updateIntervalExpiry k) s = .next (offered k x u))

/-- A position change of any source that would leave the range sets the position to the limit and records it; in SETTLING and
RUNNING it is not offered and the track enters FAULT with cause RANGE, in FAULT the state and cause stay. Stated for an update
interval of SIM, a legal edge of QUAD, and an accepted sample of SAMPLED (R10). -/
def Obligations.ClampAtTheRangeLimit : Prop :=
  ∀ (s : State) (k : TrackId) (limit : RangeLimit), s.tracks[k].state ≠ .disabled → inRange s.tracks[k].pos = true →
    let t := s.tracks[k]
    let x : Int := if limit = .high then 140737488355327 else -140737488355328
    let beyond := fun n : Int => limit = .high ∧ 140737488355327 < t.pos + n ∨ limit = .low ∧ t.pos + n < -140737488355328
    let sensed := fun d : Int => if t.cfg.sense = .normal then d else -d
    let clamps := fun (i : Instr) (v : Track) (r : State) =>
      let u := setTrack k { v with pos := x, clamp := some limit } r
      (t.state = .fault → exec i s = .next u) ∧
      (t.state ≠ .fault → ∃ w, exec i s = .next w ∧ Faulted k .range u w)
    (∀ n r : Int, t.updateTimer.isSome = true → t.remainder + t.simVel = n * 100000 + r →
      -100000 < r → r < 100000 → (0 < n → 0 ≤ r) → (n < 0 → r ≤ 0) → beyond n →
      clamps (.updateIntervalExpiry k) { t with remainder := r, updateTimer := some (s.now + 10) } s) ∧
    (∀ (r p : PhasePair) (d : Int), t.cfg.source = .quad → t.reference = some r →
      ((r, p) ∈ upEdges ∧ d = 1 ∨ (p, r) ∈ upEdges ∧ d = -1) → beyond (sensed d) →
      clamps (.phaseChange k p.a p.b) { t with reference := some p } (setPhasePin k p s)) ∧
    ∀ (parity : Bool) (raw : BitVec 32) (prev : Nat) (d : Int), t.transfer = true → 1 ≤ t.cfg.sampleWidth →
      (onesBelow t.cfg.sampleWidth raw.toNat + (if parity then 1 else 0)) % 2 = 0 → t.rPrev = some prev →
      let w := t.cfg.sampleWidth
      let r := raw.toNat % 2 ^ w
      (-(2 ^ (w - 1)) : Int) ≤ d → d < 2 ^ (w - 1) → (d - ((r : Int) - prev)) % 2 ^ w = 0 →
      (t.state ≠ .fault → d.natAbs ≤ t.cfg.jumpLimit) → beyond (sensed d) →
      clamps (.transferCompletion k true raw parity false)
        { t with transfer := false, rPrev := some r, rejects := 0, framingValid := true } s

/-- The expiry of the sample timer starts a transfer and the next sample period, with the period configured now, and TAk falls; in
a sound DISABLED track it rests high with source SAMPLED and is an input with any other (R24, R29, R36). The expiry of the settle
timer takes the track to RUNNING and raises TRACK_STATE with cause SETTLED (R8). -/
def Obligations.TimersOfATrackExpire : Prop :=
  ∀ (s : State) (k : TrackId),
    (s.tracks[k].sampleTimer.isSome = true →
      exec (.sampleTimerExpiry k) s = .next (setTrack k { s.tracks[k] with
        transfer := true, sampleTimer := some (s.now + s.tracks[k].cfg.samplePeriod) } s)) ∧
    (∀ t, s.tracks[k].sampleTimer.isSome = true → s.tracks[k].cfg.source = .sampled →
      exec (.sampleTimerExpiry k) s = .next t → taPin t k = some false) ∧
    (s.tracks[k].state = .disabled → trackSound s.tracks[k] = true →
      taPin s k = if s.tracks[k].cfg.source = .sampled then some true else none) ∧
    (s.tracks[k].state = .settling →
      exec (.settleExpiry k) s = .next (raiseRouted (routeOwned s (trackOwner s k)) (.trackState k .running .settled)
        (setTrack k { s.tracks[k] with state := .running, settleTimer := none } s)))

/-- A window end computes the last velocity, truncated toward zero and held to 32 bits, rolls the illegal count over and
starts the next window; above a nonzero overspeed limit a SETTLING or RUNNING track enters FAULT with cause OVERSPEED
(R19, R20). -/
def Obligations.WindowEndMeasuresVelocity : Prop :=
  ∀ (s : State) (k : TrackId) (w : Window) (v : Int), s.tracks[k].window = some w → 0 < w.length →
    s.tracks[k].state ≠ .disabled →
    let t := s.tracks[k]
    let d := (t.pos - w.start) * 1000
    (0 ≤ d ∧ v * w.length ≤ d ∧ d < (v + 1) * w.length ∨ d < 0 ∧ d ≤ v * w.length ∧ (v - 1) * w.length < d) →
    let last := max (-2147483648) (min 2147483647 v)
    let u := setTrack k { t with
      vel := last, lastIllegal := t.windowIllegal, windowIllegal := 0, window := some ⟨t.pos, t.cfg.window⟩ } s
    let fast := t.cfg.overspeed ≠ 0 ∧ (t.cfg.overspeed : Int) < |last|
    (t.state = .fault ∨ ¬fast → exec (.windowEnd k) s = .next u) ∧
    (t.state ≠ .fault → fast → ∃ x, exec (.windowEnd k) s = .next x ∧ Faulted k .overspeed u x)

/-! ### The commands of the tracks -/

/-- The arguments of SET_TRACK, laid out as Table 11-3 gives them. -/
def setTrackArgs (k : TrackId) (c : TrackConfig) : List Byte :=
  [indexByte k, c.source.code, if c.travel = .forward then 0 else 1, if c.sense = .normal then 0 else 1] ++
    le 2 c.settleTime ++ [BitVec.ofNat 8 c.window] ++ le 4 c.overspeed ++ [BitVec.ofNat 8 c.errorLimit] ++
    le 4 c.jumpLimit ++ [BitVec.ofNat 8 c.sampleWidth] ++ le 2 c.samplePeriod ++ le 2 c.scheduleLimit

/-- The ranges of Table 1-2. -/
def trackConfigFits (c : TrackConfig) : Prop :=
  c.settleTime ≤ 2000 ∧ c.window ∈ [1, 2, 5, 10, 20] ∧ c.overspeed ≤ 2147483647 ∧ 1 ≤ c.errorLimit ∧ c.errorLimit ≤ 15 ∧
    12 ≤ c.sampleWidth ∧ c.sampleWidth ≤ 32 ∧ 1 ≤ c.jumpLimit ∧ c.jumpLimit ≤ 2 ^ (c.sampleWidth - 1) - 1 ∧
    50 ≤ c.samplePeriod ∧ c.samplePeriod ≤ 5000 ∧ c.scheduleLimit ≤ 512

/-- SET_TRACK with every field in range stores all of them and replies OK, clearing what leaving a source clears; a changed
"DISABLED only" field outside DISABLED is TRACK_ENABLED, then a schedule limit below the cue count BAD_VALUE, and a refusal changes
nothing. Arguments of the right length that spell no configuration in range are BAD_VALUE. That the cue count is read within an
evaluation event in progress is the model's choice (log 30) (R4, R36). -/
def Obligations.SetTrackStoresEveryField : Prop :=
  (∀ (s : State) (l : LinkId) (seq : Byte) (k : TrackId) (c : TrackConfig),
    Ready l seq s → trackOwner s k ≠ some (otherLink l) → trackConfigFits c →
    let t := s.tracks[k]
    let i := Instr.setTrack l seq (setTrackArgs k c)
    let p : List Byte := 0x20 :: setTrackArgs k c
    let moves := t.cfg.source ≠ c.source ∨ t.cfg.travel ≠ c.travel ∨ t.cfg.sense ≠ c.sense ∨
      t.cfg.sampleWidth ≠ c.sampleWidth
    (t.state ≠ .disabled → moves → Answered i l seq p .trackEnabled [] s s) ∧
    ((t.state = .disabled ∨ ¬moves) → c.scheduleLimit < cueCount s k → Answered i l seq p .badValue [] s s) ∧
    ((t.state = .disabled ∨ ¬moves) → cueCount s k ≤ c.scheduleLimit →
      Answered i l seq p .ok [] s (setTrack k { t with
        cfg := c
        homeArmed := if t.cfg.source = .quad ∧ c.source ≠ .quad then false else t.homeArmed
        rPrev := if t.cfg.source ≠ c.source ∧ (t.cfg.source = .sampled ∨ c.source = .sampled) then none else t.rPrev
        simVel := if t.cfg.source = .sim ∧ c.source ≠ .sim then 0 else t.simVel
        remainder := if t.cfg.source = .sim ∧ c.source ≠ .sim then 0 else t.remainder } s))) ∧
  ∀ (s : State) (l : LinkId) (seq : Byte) (args : List Byte), Ready l seq s → args.length = 21 →
    (∀ k c, trackConfigFits c → args ≠ setTrackArgs k c) →
    Answered (.setTrack l seq args) l seq (0x20 :: args) .badValue [] s s

/-- ENABLE_TRACK is refused with TRACK_ENABLED outside DISABLED and with WRONG_SOURCE for source NONE; else the velocity, its
window and the working counts start anew, the source starts, the schedule is EVALUATING, and the track enters SETTLING, or RUNNING
with a settle time of 0. Position, clamp limit, statistics and mark unit stay (R7, R27, R29, R34, R47). -/
def Obligations.EnableTrackStartsSettling : Prop :=
  ∀ (s : State) (l : LinkId) (seq : Byte) (k : TrackId), Ready l seq s → trackOwner s k ≠ some (otherLink l) →
    let t := s.tracks[k]
    let i := Instr.enableTrack l seq [indexByte k]
    let p : List Byte := [0x21, indexByte k]
    (t.state ≠ .disabled → Answered i l seq p .trackEnabled [] s s) ∧
    (t.state = .disabled → t.cfg.source = .absent → Answered i l seq p .wrongSource [] s s) ∧
    (t.state = .disabled → t.cfg.source ≠ .absent →
      Answered i l seq p .ok [] s { setTrack k { t with
          state := if t.cfg.settleTime = 0 then .running else .settling
          settleTimer := if t.cfg.settleTime = 0 then none else some (s.now + t.cfg.settleTime * 1000)
          vel := 0, window := some ⟨t.pos, t.cfg.window⟩, rejects := 0, windowIllegal := 0, lastIllegal := 0
          framingValid := true
          reference := if t.cfg.source = .quad then some s.pins.phase[k] else t.reference
          sampleTimer := if t.cfg.source = .sampled then some (s.now + t.cfg.samplePeriod) else t.sampleTimer
          updateTimer := if t.cfg.source = .sim then some (s.now + 10) else t.updateTimer
          remainder := if t.cfg.source = .sim then 0 else t.remainder } s with
        csu := { s.csu with modes := s.csu.modes.set k .evaluating, taken := s.csu.taken.set k t.pos } })

/-- DISABLE_TRACK of a DISABLED track replies OK with count 0 and changes nothing. Else it flushes the schedule unreported, sets
the mark unit OFF, tells the DISTANCE pulses to end, stops the source and takes the track to DISABLED, with the count in the
reply. The exact state is stated for a track whose notices the CSU and MUk have taken (log 4); with notices on their way the track
still ends DISABLED with an empty schedule and its unit OFF (R14, R27, R29). -/
def Obligations.DisableTrackFlushes : Prop :=
  ∀ (s : State) (l : LinkId) (seq : Byte) (k : TrackId), Ready l seq s → trackOwner s k ≠ some (otherLink l) →
    let t := s.tracks[k]
    let i := Instr.disableTrack l seq [indexByte k]
    let p : List Byte := [0x22, indexByte k]
    (t.state = .disabled → Answered i l seq p .ok [0, 0] s s) ∧
    (t.state ≠ .disabled → ∃ n u, Answered i l seq p .ok (le 2 n) s u ∧
      u.tracks[k].state = .disabled ∧ u.csu.schedules[k] = [] ∧ u.marks[k].state = .off ∧ u.tracks[k].pos = t.pos) ∧
    (t.state ≠ .disabled → s.csu.evaluation = none → s.transit.toCsu[k] = [] → s.transit.toMark[k] = [] →
      Answered i l seq p .ok (le 2 (cueCount s k)) s
        { setMark k { s.marks[k] with state := .off, valid := false } (setTrack k { t with
            state := .disabled, cause := .absent, clamp := none, settleTimer := none, window := none, vel := 0
            homeArmed := false, reference := none, sampleTimer := none, transfer := false, rPrev := none
            updateTimer := none, remainder := 0 } s) with
          csu := { s.csu with schedules := s.csu.schedules.set k [] }
          transit := { s.transit with toLine := toldLines k (.truncate k .track) s } })

/-- PRESET sets the position and replies OK: in DISABLED nothing else; in FAULT the velocity window restarts; in SETTLING and
RUNNING the CSU, the DISTANCE pulses and MUk are told of the discontinuity, the window restarts and the track enters or restarts
SETTLING, or RUNNING with a settle time of 0. No TRACK_STATE report is raised (R15). -/
def Obligations.PresetSetsThePosition : Prop :=
  ∀ (s : State) (l : LinkId) (seq : Byte) (k : TrackId) (x : Int), Ready l seq s →
    trackOwner s k ≠ some (otherLink l) → inRange x = true →
    let t := s.tracks[k]
    let i := Instr.preset l seq (indexByte k :: leInt 6 x)
    let p : List Byte := 0x23 :: indexByte k :: leInt 6 x
    (t.state = .disabled → Answered i l seq p .ok [] s (setTrack k { t with pos := x } s)) ∧
    (t.state = .fault → Answered i l seq p .ok [] s (setTrack k { t with pos := x, window := some ⟨x, t.cfg.window⟩ } s)) ∧
    (t.state = .settling ∨ t.state = .running → ∃ u, Answered i l seq p .ok [] s u ∧
      Discontinued k x (setTrack k { t with
        pos := x, window := some ⟨x, t.cfg.window⟩
        state := if t.cfg.settleTime = 0 then .running else .settling
        settleTimer := if t.cfg.settleTime = 0 then none else some (s.now + t.cfg.settleTime * 1000) } s) u)

/-- HOME arms the index capture with its value, or disarms it and leaves the value, in every state of a QUAD track, and is
WRONG_SOURCE otherwise (R16). SET_SIM stores the simulation velocity of a SIM track, and is WRONG_SOURCE otherwise (R35).
CLEAR_STATS sets the six statistics to 0 and nothing else, in every state (R22). -/
def Obligations.HomeSimulationAndStatistics : Prop :=
  ∀ (s : State) (l : LinkId) (seq : Byte) (k : TrackId), Ready l seq s → trackOwner s k ≠ some (otherLink l) →
    let t := s.tracks[k]
    (∀ x : Int, inRange x = true →
      let a : List Byte := indexByte k :: 1 :: leInt 6 x
      (t.cfg.source ≠ .quad → Answered (.home l seq a) l seq (0x24 :: a) .wrongSource [] s s) ∧
      (t.cfg.source = .quad → Answered (.home l seq a) l seq (0x24 :: a) .ok [] s
        (setTrack k { t with homeArmed := true, homeValue := x } s))) ∧
    (∀ v : List Byte, v.length = 6 →
      let a : List Byte := indexByte k :: 0 :: v
      (t.cfg.source ≠ .quad → Answered (.home l seq a) l seq (0x24 :: a) .wrongSource [] s s) ∧
      (t.cfg.source = .quad → Answered (.home l seq a) l seq (0x24 :: a) .ok [] s
        (setTrack k { t with homeArmed := false } s))) ∧
    (∀ v : Int, -2147483648 ≤ v → v ≤ 2147483647 →
      let a : List Byte := indexByte k :: leInt 4 v
      (v < -10000000 ∨ 10000000 < v → Answered (.setSim l seq a) l seq (0x28 :: a) .badValue [] s s) ∧
      (-10000000 ≤ v → v ≤ 10000000 → t.cfg.source ≠ .sim →
        Answered (.setSim l seq a) l seq (0x28 :: a) .wrongSource [] s s) ∧
      (-10000000 ≤ v → v ≤ 10000000 → t.cfg.source = .sim →
        Answered (.setSim l seq a) l seq (0x28 :: a) .ok [] s (setTrack k { t with simVel := v } s))) ∧
    Answered (.clearStats l seq [indexByte k]) l seq [0x29, indexByte k] .ok [] s
      (setTrack k { t with stats := ⟨0, 0, 0, 0, 0, 0⟩ } s)

/-- No evaluation event is in progress, and the CSU, MUk and the lines of track k have taken every notice of their track. -/
def AllTaken (k : TrackId) (s : State) : Prop :=
  s.csu.evaluation = none ∧ s.transit.toCsu[k] = [] ∧ s.transit.toMark[k] = [] ∧
    ∀ n : LineId, s.lines[n].cfg.track = k → s.transit.toLine[n] = []

/-- Every position of track k, moved by `d`, lies in the range (R18). -/
def shiftFits (k : TrackId) (d : Int) (s : State) : Prop :=
  inRange (s.tracks[k].pos + d) = true ∧
    (∀ c ∈ s.csu.schedules[k], inRange (c.nominal + d) = true ∧ inRange (c.effective + d) = true) ∧
    (s.marks[k].valid = true → inRange (s.marks[k].last + d) = true) ∧
    ∀ (n : LineId) (o : PulseOrigin) (e : Int) (v : Travel) (x : Option Nat) (f : ProfileId) (b : Bool) (h : Nat),
      s.lines[n].cfg.track = k → s.lines[n].state = .on → s.lines[n].pulse = some ⟨o, .distance e v x, f, b, h⟩ →
      inRange (e + d) = true

/-- `s` with every position of track k moved by `d`, and the velocity window restarted unless the track is DISABLED (R18, R50). -/
def shifted (k : TrackId) (d : Int) (s : State) : State :=
  let t := s.tracks[k]
  let m := s.marks[k]
  { setMark k { m with last := if m.valid then m.last + d else m.last } (setTrack k { t with
      pos := t.pos + d
      window := if t.state = .disabled then t.window else some ⟨t.pos + d, t.cfg.window⟩ } s) with
    csu := { s.csu with
      schedules := s.csu.schedules.set k (s.csu.schedules[k].map fun c =>
        { c with nominal := c.nominal + d, effective := c.effective + d })
      taken := s.csu.taken.set k (s.csu.taken[k] + d) }
    lines := Vector.ofFn fun n => shiftLine k d s.lines[n] }

/-- REBASE adds the delta to the position, to the position the CSU last took, to both positions of every pending cue, to a VALID
last mark and to the end of every active DISTANCE pulse of the track, restarts the velocity window unless the track is DISABLED,
and changes nothing else; if any shifted value would leave the range it is OUT_OF_RANGE and shifts nothing. An evaluation event in
progress, and what the track told the CSU, MUk and its lines before, comes to its end first, and the check and the shifts are made
on the state so left (log 3, log 4). That a spawn request on its way keeps its mark position is the model's choice (log 23)
(R18, R50, R58, R93). -/
def Obligations.RebaseShiftsEveryPosition : Prop :=
  ∀ (s : State) (l : LinkId) (seq : Byte) (k : TrackId) (d : Int), Ready l seq s →
    trackOwner s k ≠ some (otherLink l) → inRange d = true →
    let i := Instr.rebase l seq (indexByte k :: leInt 6 d)
    let p : List Byte := 0x25 :: indexByte k :: leInt 6 d
    let made := fun v : State =>
      (¬shiftFits k d v → Answered i l seq p .outOfRange [] s v) ∧ (shiftFits k d v → Answered i l seq p .ok [] s (shifted k d v))
    (AllTaken k s → made s) ∧
    ∃ x : State, x.device = s.device ∧ (∀ m, (linkOn x m).state = (linkOn (heard l s) m).state) ∧
      let v := settleAllNotices k x
      v.tracks = s.tracks ∧ AllTaken k v ∧ made v

/-- QUERY_TRACK changes nothing and answers the 36 result bytes of Table 11-10 for any track, whoever owns it. That the cue count
is read within an evaluation event in progress is the model's choice (log 30) (R21, R189). -/
def Obligations.QueryTrackAnswersTheTable : Prop :=
  ∀ (s : State) (l : LinkId) (seq : Byte) (k : TrackId), Ready l seq s →
    let t := s.tracks[k]
    Answered (.queryTrack l seq [indexByte k]) l seq [0x26, indexByte k] .ok
      ([indexByte k, t.state.code, t.cause.code] ++ leInt 6 t.pos ++ leInt 4 t.vel ++ le 2 s.csu.schedules[k].length ++
        le 2 t.cfg.scheduleLimit ++ [if t.homeArmed then 1 else 0] ++ leInt 6 t.homeValue ++ le 2 t.stats.noStart ++
        le 2 t.stats.badStop ++ le 2 t.stats.parity ++ le 2 t.stats.jump ++ le 2 t.stats.illegal ++
        le 2 t.stats.ignoredMarks) s s

/-- CLEAR_TRACK_FAULT is TRACK_DISABLED in DISABLED and has no effect in SETTLING and RUNNING. In FAULT, while the persistence
condition of the recorded cause holds, it is STILL_PRESENT with the cause and changes nothing; else the cause, two counts and the
clamp limit clear, the track enters SETTLING, or RUNNING with a settle time of 0, and the CSU is told to resume (R13, R10, R32). -/
def Obligations.ClearTrackFaultTestsPersistence : Prop :=
  ∀ (s : State) (l : LinkId) (seq : Byte) (k : TrackId), Ready l seq s → trackOwner s k ≠ some (otherLink l) →
    let t := s.tracks[k]
    let i := Instr.clearTrackFault l seq [indexByte k]
    let p : List Byte := [0x27, indexByte k]
    let holds := t.cause = .sample ∧ t.framingValid = false ∨ t.cause = .quad ∧ t.cfg.errorLimit ≤ t.lastIllegal ∨
      t.cause = .range ∧ (t.clamp = some .high ∧ t.pos = 140737488355327 ∨ t.clamp = some .low ∧ t.pos = -140737488355328) ∨
      t.cause = .overspeed ∧ t.cfg.overspeed ≠ 0 ∧ (t.cfg.overspeed : Int) < |t.vel|
    (t.state = .disabled → Answered i l seq p .trackDisabled [] s s) ∧
    (t.state = .settling ∨ t.state = .running → Answered i l seq p .ok [] s s) ∧
    (t.state = .fault → holds → Answered i l seq p .stillPresent [t.cause.code] s s) ∧
    (t.state = .fault → ¬holds → Answered i l seq p .ok [] s
      { setTrack k { t with
          cause := .absent, rejects := 0, windowIllegal := 0, clamp := none
          state := if t.cfg.settleTime = 0 then .running else .settling
          settleTimer := if t.cfg.settleTime = 0 then none else some (s.now + t.cfg.settleTime * 1000) } s with
        transit := { s.transit with toCsu := s.transit.toCsu.set k (s.transit.toCsu[k] ++ [.resume t.pos]) } })

/-! ### The commands of the cue schedules -/

/-- The arguments of ADD_CUE, laid out as Table 11-6 gives them. -/
def addCueArgs (a : AddCueArgs) : List Byte :=
  [indexByte a.track, indexByte a.line,
    flagsByte [a.profile.isSome, a.width.isSome, a.tolerance.isSome, a.repetition.isSome]] ++
    le 2 a.id.toNat ++ leInt 6 a.nominal ++ [a.notify.code] ++ (a.profile.map indexByte).toList ++
    ((a.width.map (le 4)).getD []) ++ ((a.tolerance.map (le 4)).getD []) ++
    ((a.repetition.map fun r => le 4 r.pitch ++ le 2 r.remaining).getD [])

/-- The accepted values of R49. -/
def addCueFits (a : AddCueArgs) : Prop :=
  inRange a.nominal = true ∧ (∀ w ∈ a.width, 1 ≤ w ∧ w ≤ 16777215) ∧ (∀ t ∈ a.tolerance, t ≤ 2147483647) ∧
    ∀ r ∈ a.repetition, 1 ≤ r.pitch ∧ r.pitch ≤ 2147483647 ∧ 1 ≤ r.remaining ∧ r.remaining ≤ 65535

/-- The effective position of a nominal position on a line: the line offset in travel sense (R50). -/
def effectiveAt (s : State) (k : TrackId) (n : LineId) (p : Int) : Int :=
  if s.tracks[k].cfg.travel = .forward then p + s.lines[n].cfg.offset else p - s.lines[n].cfg.offset

/-- Position `p` lies ahead of position `x` on a track with this travel direction (00, "Positions and distances"). -/
def ahead (v : Travel) (p x : Int) : Bool := if v = .forward then decide (x < p) else decide (p < x)

/-- Records with the stamps from `n` on, in list order (R42). -/
def restamped (n : Nat) (cs : List Cue) : List Cue := cs.mapIdx fun i c => { c with stamp := n + i }

/-- `s` with its pending records renumbered, T0 to T3, and the stamp counter at their number (R42). -/
def renumbered (s : State) : State :=
  let sch := s.csu.schedules
  let n1 := sch[0].length
  let n2 := n1 + sch[1].length
  let n3 := n2 + sch[2].length
  { s with csu := { s.csu with
      schedules := #v[restamped 0 sch[0], restamped n1 sch[1], restamped n2 sch[2], restamped n3 sch[3]]
      stamp := n3 + sch[3].length } }

/-- `s` as an insertion finds it: renumbered if the stamp counter stands at its last value (R42). -/
def stampReady (s : State) : State := if s.csu.stamp = 4294967295 then renumbered s else s

/-- The CSU of `s` with `c` inserted into the schedule of track k between `before` and `after`, under the next stamp (R42, R43). -/
def inserted (s : State) (k : TrackId) (before : List Cue) (c : Cue) (after : List Cue) : State :=
  { s with csu := { s.csu with
      schedules := s.csu.schedules.set k (before ++ { c with stamp := s.csu.stamp } :: after), stamp := s.csu.stamp + 1 } }

/-- The place of a new record in a schedule: every cue before it is not ahead of it, and the one after it is ahead (R43). -/
def PlaceFor (v : Travel) (e : Int) (before after : List Cue) : Prop :=
  (∀ c ∈ before, ¬ahead v c.effective e) ∧ ∀ c, after.head? = some c → ahead v c.effective e

/-- ADD_CUE makes the checks of R50 in their order, and a refusal changes nothing. One that passes is admitted: its record takes
the next admission stamp, after a renumbering at the last one, and its place in the schedule, and the reply carries the number of
free records left. Stated with no evaluation event in progress (log 3). That the state checked is the one the track unit holds,
while a freeze or resume notice is on its way to the CSU too, is the model's choice (log 32) (R42, R43, R50, R51). -/
def Obligations.AddCueIsJudgedAndAdmitted : Prop :=
  ∀ (s : State) (l : LinkId) (seq : Byte) (a : AddCueArgs), Ready l seq s → addCueFits a →
    trackOwner s a.track ≠ some (otherLink l) → lineOwner s a.line ≠ some (otherLink l) →
    s.csu.evaluation = none →
    let t := s.tracks[a.track]
    let cs := s.csu.schedules[a.track]
    let e := effectiveAt s a.track a.line a.nominal
    let i := Instr.addCue l seq (addCueArgs a)
    let p : List Byte := 0x30 :: addCueArgs a
    let refusal : Option Status :=
      if s.lines[a.line].cfg.track ≠ a.track then some .wrongTrack
      else if t.state = .disabled then some .trackDisabled
      else if cs.any (fun c => c.key = .host a.id) then some .idInUse
      else if e < -140737488355328 ∨ 140737488355327 < e then some .outOfRange
      else if t.state ≠ .fault ∧ (if t.cfg.travel = .forward then e ≤ s.csu.taken[a.track] else s.csu.taken[a.track] ≤ e) then
        some .behind
      else if freeCount s = 0 then some .poolFull
      else if t.cfg.scheduleLimit ≤ cs.length then some .trackFull
      else none
    (∀ st, refusal = some st → Answered i l seq p st [] s s) ∧
    (refusal = none → ∃ before after, (stampReady s).csu.schedules[a.track] = before ++ after ∧
      PlaceFor t.cfg.travel e before after ∧
      Answered i l seq p .ok (le 2 (freeCount s - 1)) s
        (inserted (stampReady s) a.track before
          { key := .host a.id, line := a.line, nominal := a.nominal, effective := e, profile := a.profile, width := a.width
            tolerance := a.tolerance, repetition := a.repetition, index := 0, notify := a.notify, stamp := 0 } after))

/-- CANCEL_CUE takes the HOST cue with the id out of the schedule and replies with the number of free records, or NOT_FOUND.
FLUSH takes every cue of the track, or every one that names the line, and replies with their number; the others keep their order.
Neither raises a report. Stated with no evaluation event in progress (log 3) (R55, R56, R57). -/
def Obligations.CancelAndFlushRemoveCues : Prop :=
  ∀ (s : State) (l : LinkId) (seq : Byte) (k : TrackId), Ready l seq s → trackOwner s k ≠ some (otherLink l) →
    s.csu.evaluation = none →
    let cs := s.csu.schedules[k]
    let left := fun ds => { s with csu := { s.csu with schedules := s.csu.schedules.set k ds } }
    (∀ id : BitVec 16,
      let a : List Byte := indexByte k :: le 2 id.toNat
      ((∀ c ∈ cs, c.key ≠ .host id) → Answered (.cancelCue l seq a) l seq (0x31 :: a) .notFound [] s s) ∧
      ∀ before c after, cs = before ++ c :: after → c.key = .host id → (∀ d ∈ before, d.key ≠ .host id) →
        Answered (.cancelCue l seq a) l seq (0x31 :: a) .ok (le 2 (freeCount (left (before ++ after)))) s
          (left (before ++ after))) ∧
    Answered (.flush l seq [indexByte k]) l seq [0x32, indexByte k] .ok (le 2 cs.length) s (left []) ∧
    ∀ n : LineId, Answered (.flush l seq [indexByte k, indexByte n]) l seq [0x32, indexByte k, indexByte n] .ok
      (le 2 (cs.filter fun c => c.line = n).length) s (left (cs.filter fun c => c.line ≠ n))

/-- QUERY_POOL, QUERY_SCHEDULE and QUERY_CUE change nothing. QUERY_POOL answers the free records, the count and limit of each
track and the pending count of each line; QUERY_SCHEDULE the entries at the places asked for; QUERY_CUE the cue with the key that
is nearest the head, with its place, or NOT_FOUND. The layout of one cue, origin and key included, is the model's (log 12). Stated
with no evaluation event in progress (log 3) (R59, R60, R61). -/
def Obligations.ScheduleQueriesChangeNothing : Prop :=
  ∀ (s : State) (l : LinkId) (seq : Byte), Ready l seq s → s.csu.evaluation = none →
    Answered (.queryPool l seq []) l seq [0x35] .ok
      (le 2 (freeCount s) ++
        ([0, 1, 2, 3] : List TrackId).flatMap (fun k => le 2 (cueCount s k) ++ le 2 s.tracks[k].cfg.scheduleLimit) ++
        (List.finRange 16).flatMap fun n => le 2 (pendingCount s n)) s s ∧
    ∀ k : TrackId, let cs := s.csu.schedules[k]
      (∀ start n : Nat, start ≤ 511 → 1 ≤ n → n ≤ 8 →
        let a : List Byte := indexByte k :: le 2 start ++ [BitVec.ofNat 8 n]
        let es := (cs.drop start).take n
        Answered (.querySchedule l seq a) l seq (0x34 :: a) .ok
          (le 2 cs.length ++ le 2 start ++ [BitVec.ofNat 8 es.length] ++ es.flatMap scheduleEntry) s s) ∧
      ∀ key : CueKey,
        let a : List Byte := indexByte k :: key.origin :: key.bytes
        ((∀ c ∈ cs, c.key ≠ key) → Answered (.queryCue l seq a) l seq (0x33 :: a) .notFound [] s s) ∧
        ∀ before c after, cs = before ++ c :: after → c.key = key → (∀ d ∈ before, d.key ≠ key) →
          Answered (.queryCue l seq a) l seq (0x33 :: a) .ok (cueResults c before.length) s s

/-! ### Evaluation events, firing requests and the notices of the CSU -/

/-- The distance in travel sense from `e` to `x`: the overshoot of a cue, or the pitch from a mark (00, R65, R84). -/
def pastBy (v : Travel) (x e : Int) : Int := if v = .forward then x - e else e - x

/-- `s` with a CUE_OUTCOME report raised for track k if the notify level asks for this outcome (R74). -/
def told (o : OutcomeReport) (level : Notify) (s : State) : State :=
  if level = .always ∨ level = .onFail ∧ o.result ≠ .fired then
    raiseRouted (routeOwned s (trackOwner s o.track)) (.cueOutcome o) s
  else s

/-- The report of a resolution of cue `c` at an evaluation event (R65, R70, R74). -/
def outcomeAt (k : TrackId) (e : EvalInput) (c : Cue) (r : CueResult) (remaining : Nat) (rangeEnd : Bool) : OutcomeReport where
  track := k
  key := c.key
  result := r
  line := c.line
  overshoot := min (pastBy e.travel e.pos c.effective).toNat 4294967295
  index := c.index
  remaining := remaining
  pos := e.pos
  rangeEnd := rangeEnd

/-- `s` after the CSU has taken the position change `e` of track k from the front of its notices (R50, R62). -/
def taken (s : State) (k : TrackId) (e : EvalInput) (rest : List CsuNotice) : State :=
  { s with
    csu := { s.csu with taken := s.csu.taken.set k e.pos }
    transit := { s.transit with toCsu := s.transit.toCsu.set k rest } }

/-- `s` with another schedule of track k. -/
def scheduled (k : TrackId) (cs : List Cue) (s : State) : State :=
  { s with csu := { s.csu with schedules := s.csu.schedules.set k cs } }

/-- Steps 1 to 4 of Table 4-2: the outcome of a reached cue that no line is asked about, or none (R64, R65, R66, R67). -/
def decided (s : State) (e : EvalInput) (c : Cue) : Option CueResult :=
  let f := c.profile.getD s.lines[c.line].cfg.profile
  let speed := if e.travel = .forward then e.vel else -e.vel
  if e.state = .settling then some .missed
  else if c.tolerance.any (fun t : Nat => decide ((t : Int) < pastBy e.travel e.pos c.effective)) then some .late
  else if s.profiles[f].minSpeed ≠ 0 ∧ speed < s.profiles[f].minSpeed then some .slow
  else if s.inhibited then some .inhibited
  else none

/-- `t` is `s` after the head `c` of the schedule of track k, with `tail` behind it, has been resolved with outcome `r` at the
position change `e`. The cue leaves. With firings left it is inserted one pitch on under a new stamp, unless a shifted position
would leave the range, when it is freed with RANGE_END; its report carries the remaining count. A renumbering leaves out the
record in hand (log 25) (R63, R70, R74). -/
def Resolved (k : TrackId) (e : EvalInput) (c : Cue) (tail : List Cue) (r : CueResult) (s t : State) : Prop :=
  let v := scheduled k tail s
  match c.repetition with
  | none => t = told (outcomeAt k e c r 0 false) c.notify v
  | some ⟨pitch, m⟩ =>
    let d : Int := if e.travel = .forward then pitch else -pitch
    if m = 0 then t = told (outcomeAt k e c r 0 false) c.notify v
    else if inRange (c.nominal + d) = true ∧ inRange (c.effective + d) = true then
      ∃ before after, (stampReady v).csu.schedules[k] = before ++ after ∧ PlaceFor e.travel (c.effective + d) before after ∧
        t = told (outcomeAt k e c r (m - 1) false) c.notify (inserted (stampReady v) k before
          { c with nominal := c.nominal + d, effective := c.effective + d, repetition := some ⟨pitch, m - 1⟩
                   index := c.index + 1 } after)
    else t = told (outcomeAt k e c r m true) c.notify v

/-- `s` with the position change `e` of track k at the front of the notices to the CSU. -/
def changeInFront (k : TrackId) (e : EvalInput) (s : State) : State :=
  { s with transit := { s.transit with toCsu := s.transit.toCsu.set k (.change e :: s.transit.toCsu[k]) } }

/-- The position `x` has not reached the head of the schedule of track k, or there is none (R62). -/
def headAhead (k : TrackId) (e : EvalInput) (s : State) : Prop :=
  ∀ c, s.csu.schedules[k].head? = some c → ahead e.travel c.effective e.pos = true

/-- An evaluation event of a FROZEN schedule, or of one whose head lies ahead or is missing, resolves nothing. A reached head is
judged in the order of Table 4-2: MISSED in SETTLING, LATE above its tolerance, SLOW below the minimum speed of the profile used,
INHIBITED; then the cue leaves and is reported, and the event goes on with the next head as though it were taken anew. Else the
firing request goes to its line. Stated with no event in progress (R62, R63, R64, R65, R66, R67, R68, R71, R74). -/
def Obligations.EvaluationEventDecides : Prop :=
  ∀ (s : State) (k : TrackId) (e : EvalInput) (rest : List CsuNotice),
    s.transit.toCsu[k] = .change e :: rest → s.csu.evaluation = none →
    let v := taken s k e rest
    let i := Instr.evaluationEvent k
    (s.csu.modes[k] = .frozen → exec i s = .next v) ∧
    (headAhead k e s → exec i s = .next v) ∧
    ∀ (c : Cue) (tail : List Cue), s.csu.modes[k] = .evaluating → s.csu.schedules[k] = c :: tail →
      ahead e.travel c.effective e.pos = false →
      (decided s e c = none → exec i s = .next { v with csu := { v.csu with
        evaluation := some ⟨k, e, ⟨c.line, c.profile.getD s.lines[c.line].cfg.profile, c.profile.isSome, c.width⟩⟩ } }) ∧
      ∀ r, decided s e c = some r →
        (c.repetition = none → (∀ d, tail.head? = some d → ahead e.travel d.effective e.pos = true) →
          exec i s = .next (told (outcomeAt k e c r 0 false) c.notify (scheduled k tail v))) ∧
        (e.travel = s.tracks[k].cfg.travel → ∃ t, Resolved k e c tail r v t ∧ exec i s = exec i (changeInFront k e t) ∧
          (headAhead k e t → exec i s = .next t))

/-- The line asked answers by Table 4-3 and the answer is the outcome of the cue: LINE_OFF, LINE_FAULT, INHIBITED, COLLIDED, or
FIRED with the active pulse of the request - its width or the profile's, its end, holdoff and max-on -, from OFF or TEST told to
the LSV, in ON with RETRIGGER rewritten in place. That the rows of the table are taken from the top, where the inhibit meets a
line DISABLED, in FAULT or in HOLDOFF, is the model's choice (log 31). The event then goes on with the next head, as though taken
anew. A line that is not asked changes nothing (R62, R63, R68, R69, R70, R71, R106, R107). -/
def Obligations.FiringRequestIsAnswered : Prop :=
  (∀ (s : State) (n : LineId), (∀ v, s.csu.evaluation = some v → v.request.line ≠ n) →
    exec (.firingRequest n) s = .next s) ∧
  ∀ (s : State) (k : TrackId) (e : EvalInput) (r : FiringRequest) (c : Cue) (tail : List Cue),
    s.csu.evaluation = some ⟨k, e, r⟩ → s.csu.schedules[k] = c :: tail → inRange e.pos = true →
    let n := r.line
    let u := s.lines[n]
    let f := s.profiles[r.profile]
    let w := r.width.getD f.width
    let x := if e.travel = .forward then e.pos + w else e.pos - w
    let p : Pulse :=
      { origin := .cue, profile := r.profile, fromOverride := r.fromOverride, holdoff := f.holdoff
        finish := match f.mode with
          | .time => .time (s.now + min w 65535)
          | .distance => .distance (max (-140737488355328) (min 140737488355327 x)) e.travel
              (if f.maxOn = 0 then none else some (s.now + f.maxOn * 1000)) }
    let v := { s with csu := { s.csu with evaluation := none } }
    let i := Instr.firingRequest n
    let answer := fun (a : CueResult) (w : State) =>
      (c.repetition = none → (∀ d, tail.head? = some d → ahead e.travel d.effective e.pos = true) →
        exec i s = .next (told (outcomeAt k e c a 0 false) c.notify (scheduled k tail w))) ∧
      (e.travel = s.tracks[k].cfg.travel → ∃ t, Resolved k e c tail a w t ∧ (headAhead k e t → exec i s = .next t) ∧
        (s.csu.modes[k] = .evaluating → s.csu.taken[k] = e.pos →
          exec i s = exec (.evaluationEvent k) (changeInFront k e t)))
    let begun := fun (ms : List LoadNotice) => { setLine n { u with state := .on, pulse := some p, holdoffTimer := none } v with
      transit := { s.transit with toLsv := s.transit.toLsv.set n (s.transit.toLsv[n] ++ ms) } }
    (u.state = .disabled → answer .lineOff v) ∧
    (u.state = .fault → answer .lineFault v) ∧
    (u.state ≠ .disabled → u.state ≠ .fault → s.inhibited = true → answer .inhibited v) ∧
    (s.inhibited = false → u.state = .holdoff ∨ u.state = .on ∧ u.cfg.policy = .reject → answer .collided v) ∧
    (s.inhibited = false → u.state = .on → u.cfg.policy = .retrigger → answer .fired (setLine n { u with pulse := some p } v)) ∧
    (s.inhibited = false → u.state = .off → answer .fired (begun [.begun])) ∧
    (s.inhibited = false → u.state = .test → answer .fired (begun [.abandoned .pulse, .begun]))

/-- After an outcome, whichever it is, a record with firings left is re-inserted one pitch on under a new stamp, its remaining count
one lower and its index one higher, and the report carries the lower count; when a shifted position would leave the range it is
freed and the report says RANGE_END with the repetitions abandoned; at the last firing it is freed. Stated for an event that decides
this cue and reaches no further one; a record in hand is left out of a renumbering (log 25), and an outcome that the line gives is
stated with the firing request (R42, R70, R74). -/
def Obligations.RepeatingCueIsReinserted : Prop :=
  ∀ (s : State) (k : TrackId) (e : EvalInput) (rest : List CsuNotice) (c : Cue) (tail : List Cue) (pitch m : Nat)
      (r : CueResult),
    s.transit.toCsu[k] = .change e :: rest → s.csu.evaluation = none → s.csu.modes[k] = .evaluating →
    s.csu.schedules[k] = c :: tail → ahead e.travel c.effective e.pos = false → c.repetition = some ⟨pitch, m⟩ →
    (∀ d, tail.head? = some d → ahead e.travel d.effective e.pos = true) →
    decided s e c = some r → e.travel = s.tracks[k].cfg.travel →
    let d : Int := if e.travel = .forward then pitch else -pitch
    let fits := inRange (c.nominal + d) = true ∧ inRange (c.effective + d) = true
    let v := taken s k e rest
    let w := stampReady (scheduled k tail v)
    let i := Instr.evaluationEvent k
    (0 < m → fits → ahead e.travel (c.effective + d) e.pos = true →
      ∃ before after, w.csu.schedules[k] = before ++ after ∧ PlaceFor e.travel (c.effective + d) before after ∧
        exec i s = .next (told (outcomeAt k e c r (m - 1) false) c.notify (inserted w k before
          { c with nominal := c.nominal + d, effective := c.effective + d, repetition := some ⟨pitch, m - 1⟩
                   index := c.index + 1 } after))) ∧
    (0 < m → ¬fits → exec i s = .next (told (outcomeAt k e c r m true) c.notify (scheduled k tail v))) ∧
    (m = 0 → exec i s = .next (told (outcomeAt k e c r 0 false) c.notify (scheduled k tail v)))

/-- The reports of a removal by R72 or R73, in list order. -/
def removalReports (k : TrackId) (r : CueResult) (x : Int) (cs : List Cue) (s : State) : State :=
  cs.foldl (fun t c => told
    { track := k, key := c.key, result := r, line := c.line, index := c.index, pos := x, rangeEnd := false
      overshoot := if r = .passed then 0 else min (pastBy s.tracks[k].cfg.travel x c.effective).toNat 4294967295
      remaining := (c.repetition.map CueRepeat.remaining).getD 0 } c.notify t) s

/-- A discontinuity notice removes every cue of the track that the new position reaches, whole, as PASSED with overshoot 0, and a
resume notice as MISSED with its overshoot, then making the schedule EVALUATING; each is reported by its notify level, in list
order, and the cues ahead stay as they are. A freeze notice makes the schedule FROZEN and keeps its cues. Stated with no
evaluation event in progress (R47, R72, R73). -/
def Obligations.TrackNoticesRemoveReachedCues : Prop :=
  ∀ (s : State) (k : TrackId) (x : Int) (rest : List CsuNotice), s.csu.evaluation = none →
    let v := s.tracks[k].cfg.travel
    let stays := s.csu.schedules[k].filter fun c => ahead v c.effective x
    let goes := s.csu.schedules[k].filter fun c => !ahead v c.effective x
    let t := { s with transit := { s.transit with toCsu := s.transit.toCsu.set k rest } }
    let u := { t with csu := { s.csu with
      schedules := s.csu.schedules.set k stays, taken := s.csu.taken.set k x } }
    (s.transit.toCsu[k] = .discontinuity x :: rest →
      exec (.discontinuityNotice k) s = .next (removalReports k .passed x goes u)) ∧
    (s.transit.toCsu[k] = .resume x :: rest →
      exec (.resumeNotice k) s = .next (removalReports k .missed x goes
        { u with csu := { u.csu with modes := s.csu.modes.set k .evaluating } })) ∧
    (s.transit.toCsu[k] = .freeze :: rest →
      exec (.freezeNotice k) s = .next { t with csu := { s.csu with modes := s.csu.modes.set k .frozen } })

/-- A spawn request is judged in the order of R53: SPAWN_FAILED for a DISABLED track, a line of another track or a position out of
range; MISSED, without a record, when the track has reached it; SPAWN_FAILED for an empty pool or a full schedule; else it is
inserted unreported, its positions the mark's plus the template offset, and plus the line offset, in travel sense. Stated with no
evaluation event in progress (log 3). That the state checked is the one the track unit holds, while a freeze or resume notice is
on its way to the CSU too, is the model's choice (log 32) (R42, R52, R53, R54). -/
def Obligations.SpawnRequestIsJudged : Prop :=
  ∀ (s : State) (k : TrackId) (r : Spawn) (rest : List Spawn), s.transit.spawns[k] = r :: rest →
    s.csu.evaluation = none →
    let t := s.tracks[k]
    let m := r.template
    let x := s.csu.taken[k]
    let p := if t.cfg.travel = .forward then r.pos + m.offset else r.pos - m.offset
    let e := effectiveAt s k m.line p
    let v := { s with transit := { s.transit with spawns := s.transit.spawns.set k rest } }
    let i := Instr.spawnRequest k
    let fails := fun st => exec i s = .next (raiseRouted (routeOwned s (trackOwner s k)) (.spawnFailed k r.entry r.seq st) v)
    let early : Option Status :=
      if t.state = .disabled then some .trackDisabled
      else if s.lines[m.line].cfg.track ≠ k then some .wrongTrack
      else if inRange p = false ∨ inRange e = false then some .outOfRange
      else none
    let reached := t.state ≠ .fault ∧ ahead t.cfg.travel e x = false
    (∀ st, early = some st → fails st) ∧
    (early = none → reached → exec i s = .next (told
      { track := k, key := .mark r.entry r.seq, result := .missed, line := m.line
        overshoot := min (pastBy t.cfg.travel x e).toNat 4294967295
        index := 0, remaining := 0, pos := x, rangeEnd := false } m.notify v)) ∧
    (early = none → ¬reached → freeCount s = 0 → fails .poolFull) ∧
    (early = none → ¬reached → 0 < freeCount s → t.cfg.scheduleLimit ≤ cueCount s k → fails .trackFull) ∧
    (early = none → ¬reached → 0 < freeCount s → cueCount s k < t.cfg.scheduleLimit →
      ∃ before after, (stampReady v).csu.schedules[k] = before ++ after ∧ PlaceFor t.cfg.travel e before after ∧
        exec i s = .next (inserted (stampReady v) k before
          { key := .mark r.entry r.seq, line := m.line, nominal := p, effective := e, profile := m.profile, width := m.width
            tolerance := m.tolerance, repetition := none, index := 0, notify := m.notify, stamp := 0 } after))

/-! ### Loss policies and pulse ends -/

/-- A line whose pulse `p` has ended: HOLDOFF with the holdoff to apply, or OFF (R111). -/
def rested (now : Nat) (u : Line) (p : Pulse) : Line :=
  { u with
    state := if p.holdoff = 0 then .off else .holdoff, pulse := none
    holdoffTimer := if p.holdoff = 0 then none else some (now + p.holdoff) }

/-- `s` after pulse `p` of line n has ended: the line rests, and the LSV is told (R111). -/
def pulseOver (n : LineId) (p : Pulse) (s : State) : State :=
  { setLine n (rested s.now s.lines[n] p) s with
    transit := { s.transit with toLsv := s.transit.toLsv.set n (s.transit.toLsv[n] ++ [.ended]) } }

/-- `s` after pulse `p` of line n has ended with a PULSE_TRUNCATED report (R109, R110, R111). -/
def cutShort (n : LineId) (p : Pulse) (reason : Truncation) (s : State) : State :=
  pulseOver n p (raiseRouted (routeOwned s (lineOwner s n)) (.pulseTruncated n reason) s)

/-- The CSU takes a track's FLUSH notice by removing its whole schedule with one SCHEDULE_FLUSHED report, and a line's by
removing the cues that name it from the schedule of its track, reported when there was one. The mark unit goes OFF with its last
mark INVALID. A line in ON ends its pulse with PULSE_TRUNCATED, reason LINK_LOST, and in every other state stays as it is.
Each row takes one of the notices handed over, one for each loss (R57, R93, R120, R166). -/
def Obligations.FlushLossPolicyIsApplied : Prop :=
  (∀ (s : State) (k : TrackId) (rest : List LossNotice), s.csu.evaluation = none → s.transit.csuLoss = .track k :: rest →
    exec .flushLossPolicy s = .next (raiseRouted (routeOwned s (trackOwner s k)) (.scheduleFlushed k none (cueCount s k))
      (scheduled k [] { s with transit := { s.transit with csuLoss := rest } }))) ∧
  (∀ (s : State) (n : LineId) (rest : List LossNotice), s.csu.evaluation = none → s.transit.csuLoss = .line n :: rest →
    let k := s.lines[n].cfg.track
    let gone := s.csu.schedules[k].filter fun c => c.line = n
    let v := { s with transit := { s.transit with csuLoss := rest } }
    (gone = [] → exec .flushLossPolicy s = .next v) ∧
    (gone ≠ [] → exec .flushLossPolicy s = .next (raiseRouted (routeOwned s (trackOwner s k))
      (.scheduleFlushed k (some n) gone.length)
      (scheduled k (s.csu.schedules[k].filter fun c => c.line ≠ n) v)))) ∧
  (∀ (s : State) (k : TrackId) (m : Nat), s.transit.markLoss[k] = m + 1 →
    exec (.markUnitOffNotice k) s = .next { setMark k { s.marks[k] with state := .off, valid := false } s with
      transit := { s.transit with markLoss := s.transit.markLoss.set k m } }) ∧
  ∀ (s : State) (n : LineId) (m : Nat), s.transit.lineLoss[n] = m + 1 →
    let v := { s with transit := { s.transit with lineLoss := s.transit.lineLoss.set n m } }
    (s.lines[n].state ≠ .on → exec (.lineLossPolicy n) s = .next v) ∧
    ∀ p, s.lines[n].state = .on → s.lines[n].pulse = some p → exec (.lineLossPolicy n) s = .next (cutShort n p .linkLost v)

/-! ### Mark units -/

/-- A value held to the signed 32-bit range (R84, R86). -/
def held32 (v : Int) : Int := max (-2147483648) (min 2147483647 v)

/-- The spawn requests of a mark: one for each enabled template entry, in index order (R95). -/
def spawned (m : Mark) (seq : BitVec 16) (x : Int) : List Spawn :=
  (([0, 1, 2, 3, 4, 5, 6, 7] : List EntryId).filter fun e => m.program[e].enabled).map fun e => ⟨e, seq, x, m.program[e]⟩

/-- `s` after MUk has placed a mark: its new state, the MARK report if one is raised, and the spawn requests (R85, R89). -/
def marked (k : TrackId) (m : Mark) (report : Option MarkReport) (s : State) : State :=
  let u := setMark k m s
  let u := match report with
    | some r => raiseRouted (routeOwned s (trackOwner s k)) (.mark r) u
    | none => u
  { u with transit := { u.transit with
      spawns := s.transit.spawns.set k (s.transit.spawns[k] ++ spawned s.marks[k] m.seq m.last) } }

/-- A transition that is no mark edge, or one in OFF, changes nothing. A mark edge in BLANKED, or on a track that is neither
SETTLING nor RUNNING and whose fault entry MUk has taken, is ignored and counted. One in ARMED below P - T from a VALID last mark
is rejected with MARK_REJECTED. Every other one is captured: sequence, last mark, counts and state of the unit, the MARK report
while reports are ON, and the spawn requests (R81, R83, R84, R85, R86, R95, R99). -/
def Obligations.MarkEdgeIsHandled : Prop :=
  ∀ (s : State) (k : TrackId) (edge : MarkEdge),
    let m := s.marks[k]
    let t := s.tracks[k]
    let d := pastBy t.cfg.travel t.pos m.last
    let early := m.cfg.pitch ≠ 0 ∧ m.valid = true ∧ d < (m.cfg.pitch : Int) - m.cfg.tolerance
    let tracking := t.state = .settling ∨ t.state = .running ∨ MarkNotice.fault ∈ s.transit.toMark[k]
    let i := Instr.markEdge k edge
    (edge ≠ m.cfg.edge ∨ m.state = .off → exec i s = .next s) ∧
    (edge = m.cfg.edge → m.state = .blanked ∨ m.state ≠ .off ∧ ¬tracking →
      exec i s = .next (setTrack k { t with stats := { t.stats with
        ignoredMarks := if t.stats.ignoredMarks < 65535 then t.stats.ignoredMarks + 1 else 65535 } } s)) ∧
    (edge = m.cfg.edge → m.state = .armed → tracking → early →
      exec i s = .next (raiseRouted (routeOwned s (trackOwner s k)) (.markRejected k t.pos (held32 d)) s)) ∧
    (edge = m.cfg.edge → tracking → m.state = .lost ∨ m.state = .armed ∧ ¬early →
      exec i s = .next (marked k
        { m with
          seq := m.seq + 1, last := t.pos, valid := true, substitutions := 0, loss := .absent
          state := if m.cfg.blank = 0 then .armed else .blanked }
        (if m.cfg.reports then some
          { track := k, seq := m.seq + 1, pos := t.pos, vel := t.vel, pitch := if m.valid then some (held32 d) else none
            substituted := false, afterLoss := m.state = .lost } else none) s))

/-- A position change first ends blanking when it reaches the blank distance. Then a missing mark below the limit is substituted -
sequence, last mark one pitch on, count, BLANKED or ARMED by the present position, a MARK report whatever the setting, the spawn
requests -, and at the limit the unit goes LOST, its last mark INVALID, with MARK_LOST. After a substitution the same change is
tested again: a change that passes more watch points acts as though taken anew on the unit so left (R87, R88, R89, R90, R91). -/
def Obligations.MarkUnitWatchesPositionChanges : Prop :=
  ∀ (s : State) (k : TrackId) (x : Int) (rest : List MarkNotice), s.transit.toMark[k] = .change x :: rest →
    let m := s.marks[k]
    let t := s.tracks[k]
    let d := pastBy t.cfg.travel x m.last
    let v := { s with transit := { s.transit with toMark := s.transit.toMark.set k rest } }
    let missing := (m.state = .armed ∨ m.state = .blanked) ∧ m.cfg.pitch ≠ 0 ∧ m.valid = true ∧
      (t.state = .settling ∨ t.state = .running ∨ MarkNotice.fault ∈ rest) ∧ (m.cfg.pitch : Int) + m.cfg.tolerance ≤ d
    let y := if t.cfg.travel = .forward then m.last + m.cfg.pitch else m.last - m.cfg.pitch
    let w := marked k
      { m with
        seq := m.seq + 1, last := y, substitutions := m.substitutions + 1
        state := if d - m.cfg.pitch < m.cfg.blank then .blanked else .armed }
      (some { track := k, seq := m.seq + 1, pos := y, vel := t.vel, pitch := some m.cfg.pitch
              substituted := true, afterLoss := false }) v
    let i := Instr.markPositionChange k
    (¬missing → m.state = .blanked → (m.cfg.blank : Int) ≤ d → exec i s = .next (setMark k { m with state := .armed } v)) ∧
    (¬missing → m.state ≠ .blanked ∨ d < m.cfg.blank → exec i s = .next v) ∧
    (missing → m.substitutions < m.cfg.limit → d < 2 * (m.cfg.pitch : Int) + m.cfg.tolerance → exec i s = .next w) ∧
    (missing → m.substitutions < m.cfg.limit →
      exec i s = exec i { w with transit := { w.transit with toMark := w.transit.toMark.set k (.change x :: rest) } }) ∧
    (missing → m.cfg.limit ≤ m.substitutions →
      exec i s = .next (raiseRouted (routeOwned s (trackOwner s k)) (.markLost k .missing)
        (setMark k { m with state := .lost, loss := .missing, valid := false } v)))

/-- The notice of a fault entry takes an ARMED or BLANKED unit to LOST with cause TRACK_FAULT, its last mark INVALID, and raises
MARK_LOST; that of a discontinuity does the same with cause DISCONTINUITY; in LOST and OFF they have no effect (R92). -/
def Obligations.TrackNoticesLoseTheMark : Prop :=
  ∀ (s : State) (k : TrackId) (rest : List MarkNotice),
    let m := s.marks[k]
    let v := { s with transit := { s.transit with toMark := s.transit.toMark.set k rest } }
    let lost := fun cause => raiseRouted (routeOwned s (trackOwner s k)) (.markLost k cause)
      (setMark k { m with state := .lost, loss := cause, valid := false } v)
    (s.transit.toMark[k] = .fault :: rest →
      (m.state = .armed ∨ m.state = .blanked → exec (.markFaultNotice k) s = .next (lost .trackFault)) ∧
      (m.state = .lost ∨ m.state = .off → exec (.markFaultNotice k) s = .next v)) ∧
    (s.transit.toMark[k] = .discontinuity :: rest →
      (m.state = .armed ∨ m.state = .blanked → exec (.markDiscontinuityNotice k) s = .next (lost .discontinuity)) ∧
      (m.state = .lost ∨ m.state = .off → exec (.markDiscontinuityNotice k) s = .next v))

/-- The arguments of SET_MARK, laid out as Table 11-3 gives them. -/
def setMarkArgs (k : TrackId) (c : MarkConfig) : List Byte :=
  [indexByte k, markEdgeCode c.edge] ++ le 4 c.blank ++ le 4 c.pitch ++ le 4 c.tolerance ++
    [BitVec.ofNat 8 c.limit, if c.reports then 1 else 0]

/-- The arguments of SET_TEMPLATE, laid out as Table 11-3 gives them. -/
def setTemplateArgs (k : TrackId) (e : EntryId) (t : Template) : List Byte :=
  [indexByte k, indexByte e, flagsByte [t.enabled, t.profile.isSome, t.width.isSome, t.tolerance.isSome]] ++ le 4 t.offset ++
    [indexByte t.line, t.notify.code] ++ (t.profile.map indexByte).toList ++ ((t.width.map (le 4)).getD []) ++
    ((t.tolerance.map (le 4)).getD [])

/-- SET_MARK stores its six settings and changes nothing else (R96). ARM_MARKS is TRACK_DISABLED in DISABLED, arms a unit in OFF,
and has no effect on any other; DISARM_MARKS takes the unit to OFF with its last mark INVALID (R82). SET_TEMPLATE replaces one
entry, or is WRONG_TRACK for an entry to be enabled whose line is assigned to another track (R94). QUERY_MARKS changes nothing
(R97; its layout is the model's, log 12). -/
def Obligations.MarkCommandsSetTheUnit : Prop :=
  ∀ (s : State) (l : LinkId) (seq : Byte) (k : TrackId), Ready l seq s →
    let m := s.marks[k]
    Answered (.queryMarks l seq [indexByte k]) l seq [0x44, indexByte k] .ok (markResults m) s s ∧
    (trackOwner s k ≠ some (otherLink l) →
      (∀ c : MarkConfig, c.blank ≤ 16777215 → c.pitch ≤ 2147483647 →
        (if c.pitch = 0 then c.tolerance = 0 else c.tolerance < c.pitch) → c.limit ≤ 15 →
        Answered (.setMark l seq (setMarkArgs k c)) l seq (0x40 :: setMarkArgs k c) .ok [] s (setMark k { m with cfg := c } s)) ∧
      (s.tracks[k].state = .disabled → Answered (.armMarks l seq [indexByte k]) l seq [0x41, indexByte k] .trackDisabled [] s s) ∧
      (s.tracks[k].state ≠ .disabled → m.state = .off →
        Answered (.armMarks l seq [indexByte k]) l seq [0x41, indexByte k] .ok [] s
          (setMark k { m with state := .armed, valid := false, substitutions := 0, loss := .absent } s)) ∧
      (s.tracks[k].state ≠ .disabled → m.state ≠ .off →
        Answered (.armMarks l seq [indexByte k]) l seq [0x41, indexByte k] .ok [] s s) ∧
      Answered (.disarmMarks l seq [indexByte k]) l seq [0x42, indexByte k] .ok [] s
        (setMark k { m with state := .off, valid := false } s) ∧
      ∀ (e : EntryId) (t : Template), t.offset ≤ 2147483647 → (∀ w ∈ t.width, 1 ≤ w ∧ w ≤ 16777215) →
        (∀ x ∈ t.tolerance, x ≤ 2147483647) → lineOwner s t.line ≠ some (otherLink l) →
        let i := Instr.setTemplate l seq (setTemplateArgs k e t)
        let p : List Byte := 0x43 :: setTemplateArgs k e t
        (t.enabled = true → s.lines[t.line].cfg.track ≠ k → Answered i l seq p .wrongTrack [] s s) ∧
        (t.enabled = false ∨ s.lines[t.line].cfg.track = k →
          Answered i l seq p .ok [] s (setMark k { m with program := m.program.set e t } s)))

/-! ### Lines -/

/-- A TIME pulse ends at its end time; a DISTANCE pulse at the first offered change of its track that reaches its end position,
without a report; at the expiry of its max-on timer with PULSE_TRUNCATED, reason MAX_ON, and at the notice of its track unit
with the reason of the notice. Each end is followed by HOLDOFF or OFF, and the LSV is told. Other lines and pulses are not touched.
The holdoff expiry takes a line in HOLDOFF to OFF (R108, R109, R110, R111). -/
def Obligations.PulseEndsAreFollowedByHoldoff : Prop :=
  ∀ (s : State) (n : LineId),
    let u := s.lines[n]
    (∀ (p : Pulse) (x : Nat), u.state = .on → u.pulse = some p → p.finish = .time x →
      exec (.timePulseEnd n) s = .next (pulseOver n p s)) ∧
    (∀ (p : Pulse) (e : Int) (v : Travel) (x : Nat), u.state = .on → u.pulse = some p → p.finish = .distance e v (some x) →
      exec (.maxOnExpiry n) s = .next (cutShort n p .maxOn s)) ∧
    (u.state = .holdoff → exec (.holdoffExpiry n) s = .next (setLine n { u with state := .off, holdoffTimer := none } s)) ∧
    (u.state ≠ .holdoff → exec (.holdoffExpiry n) s = .next s) ∧
    (∀ (k : TrackId) (x : Int) (rest : List LineNotice), s.transit.toLine[n] = .change k x :: rest →
      let w := { s with transit := { s.transit with toLine := s.transit.toLine.set n rest } }
      (u.state ≠ .on ∨ u.cfg.track ≠ k → exec (.distancePulseEnd n) s = .next w) ∧
      ∀ p, u.state = .on → u.cfg.track = k → u.pulse = some p →
        (∀ m, p.finish = .time m → exec (.distancePulseEnd n) s = .next w) ∧
        ∀ e v m, p.finish = .distance e v m →
          (ahead v e x = true → exec (.distancePulseEnd n) s = .next w) ∧
          (ahead v e x = false → exec (.distancePulseEnd n) s = .next (pulseOver n p w))) ∧
    ∀ (k : TrackId) (reason : Truncation) (rest : List LineNotice), s.transit.toLine[n] = .truncate k reason :: rest →
      let w := { s with transit := { s.transit with toLine := s.transit.toLine.set n rest } }
      (u.state ≠ .on ∨ u.cfg.track ≠ k → exec (.trackNoticeAtLine n) s = .next w) ∧
      ∀ p, u.state = .on → u.cfg.track = k → u.pulse = some p →
        (∀ m, p.finish = .time m → exec (.trackNoticeAtLine n) s = .next w) ∧
        ∀ e v m, p.finish = .distance e v m → exec (.trackNoticeAtLine n) s = .next (cutShort n p reason w)

/-- A rise of INH sets the condition to ASSERTED, raises INHIBIT for every link that is not LOST, ends every pulse with
PULSE_TRUNCATED in ascending line order, takes a line in TEST to OFF, and tells the LSV; the other lines stay. A fall sets it
to RELEASED and raises INHIBIT, and no line changes. A level that is already held changes nothing else (R117, R118, R119, R172). -/
def Obligations.InhibitFollowsThePin : Prop :=
  ∀ s : State, (∀ n : LineId, (s.lines[n].pulse.isSome = true ↔ s.lines[n].state = .on)) →
    let shown := fun b => { s with pins := { s.pins with inhibit := b } }
    let sent := fun b (u : State) => raiseUnlessLost .link1 (.inhibit b) (raiseUnlessLost .link0 (.inhibit b) u)
    let cut := ((List.finRange 16).filter fun n => s.lines[n].state = .on).foldl
      (fun u n => raiseRouted (routeOwned s (lineOwner s n)) (.pulseTruncated n .inhibit) u) (sent true s)
    (s.inhibited = true → exec .inhibitAssertion s = .next (shown true)) ∧
    (s.inhibited = false → exec .inhibitRelease s = .next (shown false)) ∧
    (s.inhibited = true → exec .inhibitRelease s = .next (sent false { shown false with inhibited := false })) ∧
    (s.inhibited = false → exec .inhibitAssertion s = .next { shown true with
      inhibited := true
      lines := Vector.ofFn fun n =>
        match s.lines[n].state, s.lines[n].pulse with
        | .on, some p => rested s.now s.lines[n] p
        | .test, _ => { s.lines[n] with state := .off }
        | _, _ => s.lines[n]
      transit := { s.transit with
        toQueue := cut.transit.toQueue
        toLsv := Vector.ofFn fun n => s.transit.toLsv[n] ++ match s.lines[n].state with
          | .on => [.ended]
          | .test => [.abandoned .inhibit]
          | _ => []
        inhibitLsv := true } })

/-- The arguments of SET_LINE, laid out as Table 11-3 gives them. -/
def setLineArgs (n : LineId) (c : LineConfig) : List Byte :=
  [indexByte n, if c.enabled then 1 else 0, indexByte c.track, indexByte c.profile] ++ leInt 4 c.offset ++
    [c.policy.code, c.polarity.code]

/-- SET_LINE with another track is LINE_IN_USE while cues of the line are pending, then BUSY in ON, HOLDOFF or TEST, and a refusal
changes nothing. Accepted, it stores all six fields. Enabling takes the line to FAULT with OVERLOAD or STUCK latched, else to OFF;
disabling takes it to DISABLED from every state, ending a pulse with PULSE_TRUNCATED and without holdoff, abandoning a probe, and
telling the LSV. Stated with no forcing on its way to the line (log 18). That the pending count is read within an evaluation event
in progress is the model's choice (log 30) (R101, R102, R113, R114). -/
def Obligations.SetLineConfiguresTheLine : Prop :=
  ∀ (s : State) (l : LinkId) (seq : Byte) (n : LineId) (c : LineConfig), Ready l seq s →
    lineOwner s n ≠ some (otherLink l) → -1048576 ≤ c.offset → c.offset ≤ 1048575 → s.transit.forcing[n] = false →
    let u := s.lines[n]
    let i := Instr.setLine l seq (setLineArgs n c)
    let p : List Byte := 0x50 :: setLineArgs n c
    let refusal : Option Status :=
      if c.track = u.cfg.track then none
      else if pendingCount s n ≠ 0 then some .lineInUse
      else if u.state = .on ∨ u.state = .holdoff ∨ u.state = .test then some .busy
      else none
    let off : Line := { u with cfg := c, state := .disabled, pulse := none, holdoffTimer := none }
    let heardBy := fun (m : LoadNotice) (t : State) =>
      { t with transit := { t.transit with toLsv := s.transit.toLsv.set n (s.transit.toLsv[n] ++ [m]) } }
    (∀ st, refusal = some st → Answered i l seq p st [] s s) ∧
    (refusal = none →
      (c.enabled = u.cfg.enabled → Answered i l seq p .ok [] s (setLine n { u with cfg := c } s)) ∧
      (u.cfg.enabled = false → c.enabled = true → Answered i l seq p .ok [] s (setLine n { u with
        cfg := c
        state := if s.loads[n].latched.overload = true ∨ s.loads[n].latched.stuck = true then .fault else .off } s)) ∧
      (u.cfg.enabled = true → c.enabled = false → u.state ≠ .on → u.state ≠ .test →
        Answered i l seq p .ok [] s (setLine n off s)) ∧
      (u.cfg.enabled = true → c.enabled = false → u.state = .test →
        Answered i l seq p .ok [] s (heardBy (.abandoned .disabling) (setLine n off s))) ∧
      (u.cfg.enabled = true → c.enabled = false → u.state = .on →
        Answered i l seq p .ok [] s (heardBy .ended (raiseRouted (routeOwned (heard l s) (lineOwner s n))
          (.pulseTruncated n .disabled) (setLine n off s)))))

/-- The arguments of SET_PROFILE, laid out as Table 11-3 gives them. -/
def setProfileArgs (i : ProfileId) (f : Profile) : List Byte :=
  [indexByte i, f.mode.code] ++ le 4 f.width ++ le 2 f.holdoff ++ le 4 f.minSpeed ++ le 2 f.maxOn

/-- SET_PROFILE replaces the whole entry, checking no claim, and leaves every line as it is (R103, R104). FORCE_LINE is answered by
the first entry of the list of R112: LINE_OFF, LINE_FAULT, INHIBITED, BUSY in HOLDOFF and in ON with REJECT, and else OK with a
forced TIME pulse of the given width and the holdoff of the line's profile, from OFF or TEST told to the LSV, in ON with
RETRIGGER rewritten in place. QUERY_LINE changes nothing (R121; its layout is the model's, log 12, and so is that it reads the
pending count within an evaluation event in progress, log 30). -/
def Obligations.ProfilesAndForcedPulses : Prop :=
  ∀ (s : State) (l : LinkId) (seq : Byte), Ready l seq s →
    (∀ (j : ProfileId) (f : Profile), 1 ≤ f.width → f.width ≤ (if f.mode = .time then 65535 else 16777215) →
      f.holdoff ≤ 65535 → f.minSpeed ≤ 2147483647 → f.maxOn ≤ (if f.mode = .time then 0 else 65535) →
      Answered (.setProfile l seq (setProfileArgs j f)) l seq (0x51 :: setProfileArgs j f) .ok [] s
        { s with profiles := s.profiles.set j f }) ∧
    ∀ n : LineId, Answered (.queryLine l seq [indexByte n]) l seq [0x53, indexByte n] .ok (lineResults s n) s s ∧
      ∀ w : Nat, 1 ≤ w → w ≤ 65535 → lineOwner s n ≠ some (otherLink l) →
        let u := s.lines[n]
        let i := Instr.forceLine l seq (indexByte n :: le 2 w)
        let p : List Byte := 0x52 :: indexByte n :: le 2 w
        let pulse : Pulse :=
          { origin := .forced, finish := .time (s.now + w), profile := u.cfg.profile, fromOverride := false
            holdoff := s.profiles[u.cfg.profile].holdoff }
        let refusal : Option Status :=
          if u.state = .disabled then some .lineOff
          else if u.state = .fault then some .lineFault
          else if s.inhibited then some .inhibited
          else if u.state = .holdoff ∨ u.state = .on ∧ u.cfg.policy = .reject then some .busy
          else none
        (∀ st, refusal = some st → Answered i l seq p st [] s s) ∧
        (refusal = none → u.state = .on → Answered i l seq p .ok [] s (setLine n { u with pulse := some pulse } s)) ∧
        (refusal = none → u.state ≠ .on → Answered i l seq p .ok [] s
          { setLine n { u with state := .on, pulse := some pulse, holdoffTimer := none } s with
            transit := { s.transit with toLsv := s.transit.toLsv.set n (s.transit.toLsv[n] ++
              (if u.state = .test then [.abandoned .pulse, .begun] else [.begun])) } })

/-! ### The Load Supervisor -/

/-- A kind moves from unlatched to latched, with its LINE_FAULT report, unless it is masked or latched already (R128). -/
def learned (n : LineId) (kind : FaultKind) (s : State) : State :=
  let u := s.loads[n]
  let v : FaultSet := match kind with
    | .openLoad => { u.latched with openLoad := true }
    | .overload => { u.latched with overload := true }
    | .stuck => { u.latched with stuck := true }
  let masked := match kind with
    | .openLoad => u.masked.openLoad
    | .overload => u.masked.overload
    | .stuck => u.masked.stuck
  if masked = true ∨ v = u.latched then s
  else raiseRouted (routeOwned s (lineOwner s n)) (.lineFault n kind) (setLoad n { u with latched := v } s)

/-- An enabled line that is not in FAULT is forced: the forcing goes to the line, its drive view becomes INACTIVE and its
blanking timer stops (R115, R124, R129). -/
def forcedOut (n : LineId) (s : State) : State :=
  if s.lines[n].state = .disabled ∨ s.lines[n].state = .fault then s
  else { setLoad n { s.loads[n] with view := .inactive, blanking := .stopped } s with
    transit := { s.transit with forcing := s.transit.forcing.set n true } }

/-- `s` after a moment of judgement of line n outside a probe (R125, R126, R127, R128). -/
def judgedNow (n : LineId) (s : State) : State :=
  let u := s.loads[n]
  if u.view = .active ∧ u.sense = .overcurrent ∧ u.masked.overload = false then forcedOut n (learned n .overload s)
  else if u.view = .active ∧ u.sense = .noLoad ∧ u.blanking = .expired then learned n .openLoad s
  else if u.view = .inactive ∧ u.sense = .stuckOn ∧ u.masked.stuck = false then forcedOut n (learned n .stuck s)
  else s

/-- A change of the condition on SNn is stored and judged against the drive view: OVERCURRENT while ACTIVE latches OVERLOAD and
forces the line, NO_LOAD while ACTIVE latches OPEN once blanking has expired, STUCK_ON while INACTIVE latches STUCK and forces the
line; a masked kind, and every other condition and view, changes only the stored condition. Blanking expiry judges NO_LOAD. A
condition that does not change is no event. OVERCURRENT in a probe is stated with the probes (R124, R125, R126, R127, R128). -/
def Obligations.SenseIsJudged : Prop :=
  ∀ (s : State) (n : LineId),
    let u := s.loads[n]
    (∀ c : SenseCond, u.sense = c → exec (.senseEvent n c) s = .next s) ∧
    (∀ c : SenseCond, u.sense ≠ c → ¬(c = .overcurrent ∧ u.view = .probe) →
      exec (.senseEvent n c) s = .next (judgedNow n (setLoad n { u with sense := c }
        { s with pins := { s.pins with sense := s.pins.sense.set n c } }))) ∧
    (∀ x, u.blanking = .running x → u.view = .active →
      exec (.blankingExpiry n) s = .next (judgedNow n (setLoad n { u with blanking := .expired } s))) ∧
    ((∀ x, u.blanking ≠ .running x) → exec (.blankingExpiry n) s = .next s)

/-- The LSV takes the notices of a line in order: a pulse begin makes the view ACTIVE and starts the blanking timer, which a
blanking time of 0 expires at once; a pulse end makes it INACTIVE and stops the timer; a probe start makes it PROBE and starts the
20 us probe timer. Each is judged; OVERCURRENT that stands at a probe start is stated with the probes. That a probe start whose
sweep is over has no effect is the model's choice (log 19). A line that takes a forcing enters FAULT without report or holdoff,
its pulse or holdoff ended; a DISABLED one stays, and one not forced changes nothing. Stated for a line whose notices the LSV has
taken before the forcing (log 18), and not in a probe (R115, R124, R125, R135). -/
def Obligations.DriveViewFollowsTheLine : Prop :=
  ∀ (s : State) (n : LineId) (rest : List LoadNotice),
    let u := s.loads[n]
    let v := { s with transit := { s.transit with toLsv := s.transit.toLsv.set n rest } }
    let i := Instr.driveViewNotice n
    let current := s.sweep.running = true ∧ s.sweep.current = some n
    (s.transit.toLsv[n] = .begun :: rest → exec i s = .next (judgedNow n (setLoad n { u with
      view := .active, blanking := if u.blankTime = 0 then .expired else .running (s.now + u.blankTime) } v))) ∧
    (s.transit.toLsv[n] = .ended :: rest →
      exec i s = .next (judgedNow n (setLoad n { u with view := .inactive, blanking := .stopped } v))) ∧
    (s.transit.toLsv[n] = .probing :: rest → current → u.sense ≠ .overcurrent →
      exec i s = .next (setLoad n { u with view := .probe }
        { v with sweep := { s.sweep with probeTimer := some (s.now + 20) } })) ∧
    (s.transit.toLsv[n] = .probing :: rest → ¬current → exec i s = .next v) ∧
    (s.transit.forcing[n] = false → exec (.forcing n) s = .next s) ∧
    (s.transit.forcing[n] = true → s.transit.toLsv[n] = [] →
      let w := { s with transit := { s.transit with forcing := s.transit.forcing.set n false } }
      (s.lines[n].state = .disabled → exec (.forcing n) s = .next w) ∧
      (s.lines[n].state ≠ .disabled → ¬(current ∧ s.sweep.probeTimer.isSome = true) → exec (.forcing n) s = .next (judgedNow n
        (setLoad n { u with view := .inactive, blanking := .stopped }
          (setLine n { s.lines[n] with state := .fault, pulse := none, holdoffTimer := none } w)))))

/-- CLEAR_LINE_FAULT removes every requested kind that is not present, keeps and lists the present ones with STILL_PRESENT, and
takes a line in FAULT to OFF when neither OVERLOAD nor STUCK remains; the reply carries the latched set. That a requested kind
which is present but not latched is also listed as kept, with STILL_PRESENT, is the model's choice (log 27). SET_SUPERVISION
stores the sweep period and starts its timer anew, and stores and judges a line entry. QUERY_SWEEP changes nothing (its layout is
the model's, log 12). Stated with no forcing on its way (log 18), and for a line not in a probe (R129, R130, R131, R132, R138). -/
def Obligations.SupervisionCommandsActOnTheLine : Prop :=
  ∀ (s : State) (l : LinkId) (seq : Byte), Ready l seq s →
    Answered (.querySweep l seq []) l seq [0x57] .ok (sweepResults s) s s ∧
    (∀ (n : LineId) (ks : FaultSet), lineOwner s n ≠ some (otherLink l) → s.transit.forcing[n] = false →
      ks ≠ ⟨false, false, false⟩ →
      let u := s.loads[n]
      let kept : FaultSet :=
        ⟨ks.openLoad && (u.view == .active && u.sense == .noLoad), ks.overload && (u.view == .active && u.sense == .overcurrent),
          ks.stuck && u.sense == .stuckOn⟩
      let left : FaultSet :=
        ⟨u.latched.openLoad && (!ks.openLoad || kept.openLoad), u.latched.overload && (!ks.overload || kept.overload),
          u.latched.stuck && (!ks.stuck || kept.stuck)⟩
      let v := setLoad n { u with latched := left } s
      let w := if s.lines[n].state = .fault ∧ left.overload = false ∧ left.stuck = false then
        setLine n { s.lines[n] with state := .off } v else v
      let i := Instr.clearLineFault l seq [indexByte n, ks.code]
      let p : List Byte := [0x54, indexByte n, ks.code]
      (kept = ⟨false, false, false⟩ → Answered i l seq p .ok [left.code] s w) ∧
      (kept ≠ ⟨false, false, false⟩ → Answered i l seq p .stillPresent [kept.code, left.code] s w)) ∧
    ∀ ms : Nat, ms = 0 ∨ 100 ≤ ms ∧ ms ≤ 60000 →
      let w := { s with sweep := { s.sweep with
        period := ms, periodTimer := if ms = 0 then none else some (s.now + ms * 1000) } }
      Answered (.setSupervision l seq (le 2 ms)) l seq (0x55 :: le 2 ms) .ok [] s w ∧
      ∀ (n : LineId) (masks : FaultSet) (b : Nat), lineOwner s n ≠ some (otherLink l) → b ≤ 1000 →
        s.loads[n].view ≠ .probe →
        let a : List Byte := le 2 ms ++ [indexByte n, masks.code] ++ le 2 b
        Answered (.setSupervision l seq a) l seq (0x55 :: a) .ok [] s
          (judgedNow n (heard l (setLoad n { s.loads[n] with masked := masks, blankTime := b } w)))

/-- A visit of this line sends a probe start: it is not DISABLED and its OPEN mask is UNMASKED (R134). -/
def TakesProbe (s : State) (n : LineId) : Prop := s.lines[n].state ≠ .disabled ∧ s.loads[n].masked.openLoad = false

/-- The results after the visits of the lines from `i` on below `j`, none of which took a probe start (R134). -/
def passedOver (s : State) (i j : Nat) : Vector SweepResult 16 :=
  Vector.ofFn fun n =>
    if i ≤ n.val ∧ n.val < j then (if s.lines[n].state = .disabled then .notEnabled else .skippedMasked)
    else s.sweep.results[n]

/-- `s` after its sweep has ended: IDLE without a current line, and SWEEP_DONE raised with the counts of its results and its
aborted flag, for the starter's link while that is not LOST, else as a report without an owner (R137). -/
def sweepOver (s : State) : State :=
  let count := fun r => ((List.finRange 16).filter fun n => s.sweep.results[n] = r).length
  let report := Report.sweepDone (count .pass) (count .openLoad) (count .overload)
    (count .notEnabled + count .skippedMasked + count .skippedBusy) s.sweep.aborted
  let dest := match s.sweep.starter with
    | .link l => if isLost s l then routeUnowned s else some l
    | _ => routeUnowned s
  raiseRouted dest report { s with sweep := { s.sweep with running := false, current := none, probeTimer := none, request := none } }

/-- `t` is `s` after the sweep has gone on with the visit of line `i`: a probe start stands for the first line from `i` on that
takes one, or there is none and the sweep is over (R134, R137). -/
def WentOn (i : Nat) (s t : State) : Prop :=
  (∃ m : LineId, i ≤ m.val ∧ TakesProbe s m ∧ (∀ n : LineId, i ≤ n.val → n < m → ¬TakesProbe s n) ∧
    t = { s with sweep := { s.sweep with results := passedOver s i m.val, current := some m, request := some m } }) ∨
  ((∀ n : LineId, i ≤ n.val → ¬TakesProbe s n) ∧
    t = sweepOver { s with sweep := { s.sweep with results := passedOver s i 16 } })

/-- `s` with a sweep started by `by_`: every result NOT_RUN, not aborted, RUNNING (R134). That an inhibit assertion which the LSV
has not yet taken no longer counts is the model's choice (log 19). -/
def swept (by_ : Starter) (s : State) : State :=
  { s with
    sweep := { s.sweep with
      running := true, starter := by_, aborted := false, results := Vector.replicate 16 .notRun }
    transit := { s.transit with inhibitLsv := false } }

/-- START_SWEEP is BUSY while a sweep runs, else INHIBITED, else starts one and visits line 0. The period timer starts again at its
expiry, and starts a PERIODIC sweep unless one runs or the inhibit is ASSERTED. A line in OFF that takes the probe start of its
visit enters TEST and tells the LSV; every other answers busy, its result is SKIPPED_BUSY and the sweep goes on. Stated with no
forcing on its way to that line (log 18). That a start clears an inhibit assertion the LSV has not yet taken is the model's choice
(log 19) (R116, R133, R134, R137). -/
def Obligations.SweepVisitsTheLines : Prop :=
  (∀ (s : State) (l : LinkId) (seq : Byte), Ready l seq s →
    let i := Instr.startSweep l seq []
    (s.sweep.running = true → Answered i l seq [0x56] .busy [] s s) ∧
    (s.sweep.running = false → s.inhibited = true → Answered i l seq [0x56] .inhibited [] s s) ∧
    (s.sweep.running = false → s.inhibited = false → ∃ t,
      WentOn 0 (swept (.link l) (heard l s)) t ∧ Answered i l seq [0x56] .ok [] s t)) ∧
  (∀ s : State,
    let v := { s with sweep := { s.sweep with periodTimer := some (s.now + s.sweep.period * 1000) } }
    (s.sweep.periodTimer = none → exec .periodTimerExpiry s = .next s) ∧
    (s.sweep.periodTimer.isSome = true → s.sweep.running = true ∨ s.inhibited = true → exec .periodTimerExpiry s = .next v) ∧
    (s.sweep.periodTimer.isSome = true → s.sweep.running = false → s.inhibited = false → ∃ t,
      WentOn 0 (swept .periodic v) t ∧ exec .periodTimerExpiry s = .next t)) ∧
  ∀ (s : State) (n : LineId),
    (s.sweep.request ≠ some n → exec (.probeStart n) s = .next s) ∧
    (s.sweep.request = some n → s.transit.forcing[n] = false →
      let v := { s with sweep := { s.sweep with request := none } }
      (s.lines[n].state = .off → s.inhibited = false → exec (.probeStart n) s = .next
        { setLine n { s.lines[n] with state := .test } v with
          transit := { s.transit with toLsv := s.transit.toLsv.set n (s.transit.toLsv[n] ++ [.probing]) } }) ∧
      (s.lines[n].state ≠ .off ∨ s.inhibited = true → ∃ t,
        WentOn (n.val + 1) { v with sweep := { v.sweep with results := s.sweep.results.set n .skippedBusy } } t ∧
        exec (.probeStart n) s = .next t))

/-- `s` after the LSV has ended the probe of line n with this result: the timer stopped and the view INACTIVE (R135). -/
def probeDone (n : LineId) (r : SweepResult) (s : State) : State :=
  { setLoad n { s.loads[n] with view := .inactive } s with
    sweep := { s.sweep with probeTimer := none, results := s.sweep.results.set n r } }

/-- Line n told of the end of its probe enters OFF (R116). -/
def backToOff (n : LineId) (s : State) : State :=
  if s.lines[n].state = .test then setLine n { s.lines[n] with state := .off } s else s

/-- `s` after OVERCURRENT has ended the probe of line n with OVERLOAD: masked, the line enters OFF; unmasked, it is latched and the
line forced, a line in TEST entering FAULT in the same event (R115, R126, R133, R135, log 18). -/
def overloaded (n : LineId) (s : State) : State :=
  let w := probeDone n .overload s
  let v := learned n .overload w
  if s.loads[n].masked.overload then backToOff n w
  else if s.lines[n].state = .test then
    { setLoad n { v.loads[n] with view := .inactive, blanking := .stopped }
        (setLine n { s.lines[n] with state := .fault, pulse := none, holdoffTimer := none } v) with
      transit := { v.transit with forcing := s.transit.forcing.set n false } }
  else forcedOut n v

/-- The probe timer expires: NO_LOAD gives OPEN and latches it, NORMAL and STUCK_ON give PASS; the line enters OFF, the view
becomes INACTIVE, a standing STUCK_ON is judged, and the sweep goes on. OVERCURRENT in the probe, or standing when the LSV takes
the probe start, ends it at once with OVERLOAD: unmasked it is latched and the line forced, masked the line enters OFF. A forcing
taken during the probe ends it: the line enters FAULT, the result is one of four and left free (log 29), and the sweep goes on. A
probe given up by its line gives SKIPPED_BUSY, and the sweep goes on, or is aborted when the cause is the inhibit; one the LSV has
ended already only sets the view. The LSV's own abort gives the line in TEST SKIPPED_BUSY and ends the sweep; an idle sweep is not
changed. The probe expiry, the forcing and the LSV's own abort are stated for a line none of whose notices is on its way (log 18,
log 19) (R115, R124, R126, R135, R136, R137). -/
def Obligations.ProbesEndWithTheirResult : Prop :=
  (∀ (s : State) (n : LineId), s.sweep.running = true → s.sweep.current = some n → s.sweep.probeTimer.isSome = true →
    s.loads[n].view = .probe →
    (s.transit.toLsv[n] = [] → s.loads[n].sense ≠ .overcurrent → ∃ t, exec .probeTimerExpiry s = .next t ∧
      WentOn (n.val + 1)
        (if s.loads[n].sense = .noLoad then learned n .openLoad (backToOff n (probeDone n .openLoad s))
         else judgedNow n (backToOff n (probeDone n .pass s))) t) ∧
    (s.loads[n].sense ≠ .overcurrent → ∃ t, exec (.senseEvent n .overcurrent) s = .next t ∧
      let v := { s with pins := { s.pins with sense := s.pins.sense.set n .overcurrent } }
      WentOn (n.val + 1) (overloaded n (setLoad n { s.loads[n] with sense := .overcurrent } v)) t) ∧
    (s.transit.toLsv[n] = [] → s.transit.forcing[n] = true → s.lines[n].state ≠ .disabled →
      ∃ r ∈ [SweepResult.pass, .openLoad, .overload, .skippedBusy], ∃ t, exec (.forcing n) s = .next t ∧
        WentOn (n.val + 1) (judgedNow n (setLoad n { s.loads[n] with view := .inactive, blanking := .stopped }
          (setLine n { s.lines[n] with state := .fault, pulse := none, holdoffTimer := none } { s with
            sweep := { s.sweep with
              probeTimer := none, results := s.sweep.results.set n r, forced := s.sweep.forced + 1 }
            transit := { s.transit with forcing := s.transit.forcing.set n false } }))) t) ∧
    ∀ cause rest, s.transit.toLsv[n] = .abandoned cause :: rest →
      let v := { s with transit := { s.transit with toLsv := s.transit.toLsv.set n rest } }
      let w := judgedNow n (setLoad n { s.loads[n] with view := if cause = .pulse then .active else .inactive }
        { v with sweep := { s.sweep with probeTimer := none, results := s.sweep.results.set n .skippedBusy } })
      (cause ≠ .inhibit → ∃ t, exec (.abandonment n) s = .next t ∧ WentOn (n.val + 1) w t) ∧
      (cause = .inhibit → exec (.abandonment n) s = .next (sweepOver { w with sweep := { w.sweep with aborted := true } }))) ∧
  (∀ (s : State) (n : LineId) (rest : List LoadNotice), s.sweep.running = true → s.sweep.current = some n →
    s.transit.toLsv[n] = .probing :: rest → s.loads[n].sense = .overcurrent →
    ∃ t, exec (.driveViewNotice n) s = .next t ∧ WentOn (n.val + 1)
      (overloaded n { s with transit := { s.transit with toLsv := s.transit.toLsv.set n rest } }) t) ∧
  (∀ (s : State) (n : LineId) (cause : Abandon) (rest : List LoadNotice), s.transit.toLsv[n] = .abandoned cause :: rest →
    (s.sweep.running = false ∨ s.sweep.current ≠ some n ∨ s.sweep.probeTimer = none) →
    exec (.abandonment n) s = .next (judgedNow n (setLoad n
      { s.loads[n] with view := if cause = .pulse then .active else .inactive }
      { s with transit := { s.transit with toLsv := s.transit.toLsv.set n rest } }))) ∧
  ∀ s : State,
    let v := { s with transit := { s.transit with inhibitLsv := false } }
    let aborted := fun t : State => sweepOver { t with sweep := { t.sweep with aborted := true } }
    (s.transit.inhibitLsv = false → exec .abortByInhibit s = .next s) ∧
    (s.transit.inhibitLsv = true → s.sweep.running = false → exec .abortByInhibit s = .next v) ∧
    ∀ n, s.transit.inhibitLsv = true → s.sweep.running = true → s.sweep.current = some n → s.transit.toLsv[n] = [] →
      (s.sweep.probeTimer = none → exec .abortByInhibit s = .next (aborted v)) ∧
      (s.sweep.probeTimer.isSome = true →
        exec .abortByInhibit s = .next (aborted (judgedNow n (backToOff n (probeDone n .skippedBusy v)))))

/-! ### Receiving frames -/

/-- A received byte is passed over while HUNTING unless it is SYNC, and else joins the frame begun. On LINK1 a byte is taken only
while selected, and with it one is shifted out: the next byte of the outbound frame, or the fill byte 00H. After the byte, and
when CS1N falls, SDO1 presents the first bit of the next one: between frames, a SYNC exactly while ATTN1 is asserted, but for a
reset that is due. CS1N falling disturbs no receiver. The low level that SDO1 presents while a reset is due, and that LINK1
chooses no frame before its first byte is clocked, are the model's choice (log 14) (R140, R142, R143, R149). -/
def Obligations.BytesFillTheReceiver : Prop :=
  ∀ (s : State) (b : Byte),
    let fed := fun l => setLink l { linkOn s l with
      receiver := if (linkOn s l).receiver = [] ∧ b ≠ 0xC3 then [] else (linkOn s l).receiver ++ [b] } s
    (Unfinished (linkOn s .link0).receiver →
      ∃ t, exec (.receivedByte .link0 b) s = .next t ∧ Settled (fed .link0) t) ∧
    (s.pins.selected = false → ∃ t, exec (.receivedByte .link1 b) s = .next t ∧ Settled s t) ∧
    let u := linkOn s .link1
    let shows := fun (c : Bool) (v : State) => setLink .link1 { linkOn v .link1 with syncOut := c } v
    (s.pins.selected = true → Unfinished u.receiver →
      (∀ o, u.outbound = some o → o.sent < o.bytes.length → o.bytes[o.sent]? = some (nextOutByte s) ∧
        ∃ t c, exec (.receivedByte .link1 b) s = .next t ∧ Settled (shows c (fed .link1)) t ∧
          (linkOn t .link1).outbound = some { o with sent := o.sent + 1 } ∧
          c = (decide (o.sent + 1 = o.bytes.length) && !(u.resetWait && o.kind == .reply) && attn1 t)) ∧
      (u.outbound = none → u.syncOut = false → nextOutByte s = 0 ∧
        ∃ t, exec (.receivedByte .link1 b) s = .next t ∧ Settled (shows (attn1 t) (fed .link1)) t ∧
          (linkOn t .link1).outbound = none)) ∧
    (s.pins.selected = true → ∃ t, exec .cs1nFall s = .next t ∧ Settled s t) ∧
    (s.pins.selected = false →
      let v := { s with pins := { s.pins with selected := true } }
      (u.outbound = none → ∃ t, exec .cs1nFall s = .next t ∧ Settled (shows (attn1 t) v) t ∧ sdo1 t = some (attn1 t)) ∧
      ∀ o, u.outbound = some o → o.sent < o.bytes.length → ∃ t, exec .cs1nFall s = .next t ∧ Settled (shows false v) t ∧
        sdo1 t = (o.bytes[o.sent]?.map fun x => x.msb))

/-- A complete frame whose CRC and TYPE are right gives the valid-frame notice, and is buffered behind the frames waiting, the
oldest becoming current when none is; with two waiting it is discarded. A wrong CRC or TYPE, and a LEN outside 1 to 200, is one
bad frame. A gap on LINK0, or a rise of CS1N on LINK1, truncates the frame begun, and the rise makes an interrupted frame start
over and leaves SDO1 undriven. Behind a discarded SYNC the bytes are examined again: a frame found among them is judged, and one
that they do not complete stays in the receiver, or is dropped without a count after a truncation. The clauses for bytes without a
second SYNC spell out the case in which the rescan finds none (R143, R144, R145, R146, R149). -/
def Obligations.FramesAreJudged : Prop :=
  (∀ (s : State) (l : LinkId) (type seq a b : Byte) (payload : List Byte), 1 ≤ payload.length → payload.length ≤ 200 →
    let body : List Byte := BitVec.ofNat 8 payload.length :: type :: seq :: payload
    let u := linkOn s l
    let i := Instr.completeFrame l
    let valid := crcBytes body = [a, b] ∧ type = 1
    let f : Frame := ⟨seq, payload, isLost s l⟩
    let v : Link := { u with receiver := [], holdReports := u.holdReports || isLost s l }
    let lone := ∀ x ∈ body ++ [a, b], x ≠ 0xC3
    u.receiver = 0xC3 :: (body ++ [a, b]) →
    (valid → u.current = none → u.inbound = [] →
      ∃ t, exec i s = .next t ∧ Settled (noticed l { v with current := some ⟨f, false, false⟩ } s) t) ∧
    (valid → u.current ≠ none → u.inbound.length < 2 →
      ∃ t, exec i s = .next t ∧ Settled (noticed l { v with inbound := u.inbound ++ [f] } s) t) ∧
    (valid → 2 ≤ u.inbound.length → lone →
      ∃ t, exec i s = .next t ∧ Settled (noticed l { u with receiver := [], discarded := countUp u.discarded } s) t) ∧
    (¬valid → lone →
      ∃ t, exec i s = .next t ∧ Settled (setLink l { u with receiver := [], badFrames := countUp u.badFrames } s) t)) ∧
  (∀ (s : State) (l : LinkId) (type seq : Byte) (payload bs after : List Byte), Framed type seq payload bs →
    (linkOn s l).receiver = 0xC3 :: bs ++ after →
    ∃ t w, exec (.completeFrame l) s = .next t ∧ Rescans l false (0xC3 :: bs ++ after) s w ∧ Settled w t) ∧
  (∀ (s : State) (l : LinkId) (len : Byte) (rest : List Byte), (linkOn s l).receiver = 0xC3 :: len :: rest →
    len.toNat = 0 ∨ 200 < len.toNat →
    ∃ t w, exec (.badLenDiscard l) s = .next t ∧ Rescans l false (0xC3 :: len :: rest) s w ∧ Settled w t) ∧
  (∀ (s : State) (l : LinkId) (len : Byte), (linkOn s l).receiver = [0xC3, len] → len.toNat = 0 ∨ 200 < len.toNat →
    ∃ t, exec (.badLenDiscard l) s = .next t ∧
      Settled (setLink l { linkOn s l with receiver := [], badFrames := countUp (linkOn s l).badFrames } s) t) ∧
  (∀ (s : State) (l : LinkId), Unfinished (linkOn s l).receiver →
    (∃ t, exec (.completeFrame l) s = .next t ∧ Settled s t) ∧ ∃ t, exec (.badLenDiscard l) s = .next t ∧ Settled s t) ∧
  ∀ s : State,
    let risen := setLink .link1 { linkOn s .link1 with syncOut := false } { s with pins := { s.pins with selected := false } }
    let cut := fun (l : LinkId) (v : State) =>
      setLink l { linkOn v l with receiver := [], truncated := countUp (linkOn s l).truncated } v
    let counted := fun (l : LinkId) (v : State) => setLink l { linkOn v l with truncated := countUp (linkOn s l).truncated } v
    (∀ rest, (linkOn s .link0).receiver = 0xC3 :: rest → Unfinished (0xC3 :: rest) →
      ∃ t w, exec .gapTruncation s = .next t ∧ Rescans .link0 true rest (counted .link0 s) w ∧ Settled w t) ∧
    (∀ rest, s.pins.selected = true → (linkOn s .link1).receiver = 0xC3 :: rest → Unfinished (0xC3 :: rest) →
      ∃ t w, exec .cs1nRise s = .next t ∧ Rescans .link1 true rest (counted .link1 risen) w ∧ Settled w t) ∧
    ((linkOn s .link0).receiver = [] → ∃ t, exec .gapTruncation s = .next t ∧ Settled s t) ∧
    (∀ rest, (linkOn s .link0).receiver = 0xC3 :: rest → Unfinished (0xC3 :: rest) → (∀ x ∈ rest, x ≠ 0xC3) →
      ∃ t, exec .gapTruncation s = .next t ∧ Settled (cut .link0 s) t) ∧
    (s.pins.selected = false → ∃ t, exec .cs1nRise s = .next t ∧ Settled s t) ∧
    (s.pins.selected = true → (linkOn s .link1).receiver = [] → ∃ t, exec .cs1nRise s = .next t ∧ Settled risen t ∧
      sdo1 t = none ∧ ∀ o, (linkOn s .link1).outbound = some o → o.sent < o.bytes.length →
        (linkOn t .link1).outbound = some { o with sent := 0 }) ∧
    ∀ rest, s.pins.selected = true → (linkOn s .link1).receiver = 0xC3 :: rest → Unfinished (0xC3 :: rest) →
      (∀ x ∈ rest, x ≠ 0xC3) → ∃ t, exec .cs1nRise s = .next t ∧ Settled (cut .link1 risen) t

/-! ### Sending frames -/

/-- `s` after the last byte of the reply to `c`, the current command of link `l`: the next frame of the buffer becomes current,
and a baud rate or a report that waited for this reply waits no longer (R146, R152, R181). -/
def replyOver (l : LinkId) (c : Current) (s : State) : State :=
  let u := linkOn s l
  let next : Link := match u.inbound with
    | [] => { u with current := none }
    | f :: rest => { u with current := some ⟨f, false, false⟩, inbound := rest }
  setLink l { next with outbound := none, holdReports := u.holdReports && !c.frame.resumes } { s with
    baud := if s.baud.awaiting = some l then { s.baud with awaiting := none } else s.baud }

/-- The records at the expiry of the resend timer: every IN_FLIGHT one is due again (R177). -/
def dueAgain (rs : List Record) : List Record :=
  rs.map fun r => match r.standing with
    | .inFlight _ => { r with standing := .inFlight true }
    | _ => r

/-- A link that sends a frame begins no other. A link that sends none begins a pending reply, else the oldest record due for
resending, its mark cleared, else with fewer than eight records IN_FLIGHT the oldest WAITING one, which becomes SENDING; else
nothing. LINK0 begins nothing while a baud rate waits to be applied, and no report leaves before the reply that resumed its link.
ATTN1 is asserted exactly while a frame is partly sent or one could be chosen. Stated for LINK0 at CS1N_FALL, which changes
nothing that LINK0 sends by, and for LINK1 at a byte clocked while SDO1 presents a SYNC. REPLY_SENT, SENT_NOTICE, RESEND_EXPIRY,
REPORT_RECORD and the taking of a baud rate (at its row, log 34) end with the choice of LINK0: it begins what this order gives on
the state that the event leaves (a choice that stands before the event is made first). These moments of choice, and that no report
leaves before the reply that resumes a link, are the model's (log 14, log 16) (R142, R146, R148, R149, R152, R174, R175, R176,
R177). -/
def Obligations.OutboundFramesAreChosenInOrder : Prop :=
  (∀ (s : State) (l : LinkId) (b : Byte),
    let u := linkOn s l
    let q := queueOn s l
    let waits := rateWaits l s
    let frame := fun r : Record => reportOut r (if l = .link0 then 0 else 1)
    let free := reportsNext l s
    let i : Instr := if l = .link0 then .cs1nFall else .receivedByte .link1 b
    let nothing := offersNothing q
    (∀ o, l = .link1 → u.outbound = some o → o.sent < o.bytes.length → attn1 s = true) ∧
    (l = .link1 → u.outbound = none → (attn1 s = true ↔ u.replyPending = true ∨ u.holdReports = false ∧ ¬nothing)) ∧
    ((l = .link1 → s.pins.selected = true ∧ u.syncOut = true ∧ Unfinished u.receiver) → ∃ t, exec i s = .next t ∧
      (∀ o, l = .link0 → u.outbound = some o → (linkOn t l).outbound = some o ∧ queueOn t l = q) ∧
      (l = .link1 → u.outbound = none → nextOutByte s = 0xC3) ∧
      (u.outbound = none → waits → (linkOn t l).outbound = none ∧ queueOn t l = q) ∧
      (∀ f, u.outbound = none → ¬waits → u.replyPending = true → u.storedReply = some f →
        (linkOn t l).outbound = some ⟨.reply, f, if l = .link0 then 0 else 1⟩ ∧ (linkOn t l).replyPending = false ∧
          queueOn t l = q) ∧
      (u.outbound = none → ¬waits → u.replyPending = false → u.holdReports = true →
        (linkOn t l).outbound = none ∧ queueOn t l = q) ∧
      (∀ before r after, free → q.records = before ++ r :: after → r.standing = .inFlight true →
        (∀ x ∈ before, x.standing ≠ .inFlight true) →
        (linkOn t l).outbound = frame r ∧
          queueOn t l = { q with records := before ++ { r with standing := .inFlight false } :: after }) ∧
      (∀ before r after, free → (∀ x ∈ q.records, x.standing ≠ .inFlight true) → q.inFlight < 8 →
        q.records = before ++ r :: after → r.standing = .waiting → (∀ x ∈ before, x.standing ≠ .waiting) →
        (linkOn t l).outbound = frame r ∧
          queueOn t l = { q with records := before ++ { r with standing := .sending } :: after }) ∧
      (free → nothing → (linkOn t l).outbound = none ∧ queueOn t l = q))) ∧
  ∀ (s : State) (l : LinkId), ∃ v, Begun .link0 s v ∧
    let u := linkOn v l
    let q := queueOn v l
    let leads := fun (i : Instr) (w : State) => ∃ t, exec i s = .next t ∧ Begun .link0 w t
    (∀ o c, u.outbound = some o → o.kind = .reply → l = .link0 ∨ o.sent = o.bytes.length → u.resetWait = false →
      u.current = some c → leads (.replySent l) (replyOver l c v)) ∧
    (∀ o seq, u.outbound = some o → o.kind = .report seq → l = .link0 ∨ o.sent = o.bytes.length →
      (∀ before r after, q.records = before ++ r :: after → r.seq = seq → r.standing = .sending →
        (∀ x ∈ before, x.seq ≠ seq ∨ x.standing ≠ .sending) →
        leads (.sentNotice l) (setQueue l { q with
          records := before ++ { r with standing := .inFlight false } :: after
          resendTimer := some (q.resendTimer.getD (s.now + u.resend * 1000)) } (setLink l { u with outbound := none } v))) ∧
      ((∀ x ∈ q.records, x.seq ≠ seq ∨ x.standing ≠ .sending) →
        leads (.sentNotice l) (setLink l { u with outbound := none } v))) ∧
    (q.resendTimer ≠ none → leads (.resendExpiry l) (setQueue l { q with
      records := dueAgain q.records, resendTimer := some (s.now + u.resend * 1000) } v)) ∧
    (∀ r rest, s.transit.toQueue.at_ l = r :: rest → q.accepting = true → q.records.length < 64 →
      leads (.reportRecord l) (setQueue l { q with
        records := q.records ++ [⟨r, q.nextSeq, .waiting⟩], nextSeq := q.nextSeq + 1 }
        { v with transit := { s.transit with toQueue := s.transit.toQueue.put l rest } })) ∧
    ∀ r, s.baud.pending = some r → s.baud.awaiting = none → (linkOn v .link0).outbound = none → (linkOn v .link0).receiver = [] →
      leads .pendingBaudRateApplied { v with baud := ⟨r, none, none⟩ }

/-- The last byte of a reply ends the current command, and the next frame of the buffer becomes current. The sent notice of a
report frame makes its SENDING record IN_FLIGHT and starts a stopped resend timer; for any other record it changes nothing. LINK1
then sends nothing, and its other records stay as they are: that it chooses no frame before the next byte clocked is the model's
choice (log 14). What LINK0 begins is stated with the order of its frames. LINK0 takes its pending baud rate when the reply it
waited for is done, no frame is being sent and none is being received, and not before; that the rate changes at its row and not at
the first such moment is the model's choice (log 34) (R146, R152, R176). -/
def Obligations.SentFramesActOnTheirLink : Prop :=
  (∀ (s : State) (l : LinkId) (o : Outbound),
    let u := linkOn s l
    let q := queueOn s l
    let idle := fun t : State => l = .link1 → (linkOn t l).outbound = none
    u.outbound = some o →
    (l = .link1 → o.sent ≠ o.bytes.length → (∃ t, exec (.replySent l) s = .next t ∧ Settled s t) ∧
      ∃ t, exec (.sentNotice l) s = .next t ∧ Settled s t) ∧
    (∀ c, o.kind = .reply → l = .link0 ∨ o.sent = o.bytes.length → u.resetWait = false → u.current = some c →
      ∃ t, exec (.replySent l) s = .next t ∧ Settled (replyOver l c s) t ∧ idle t ∧ (l = .link1 → queueOn t l = q)) ∧
    ∀ seq, o.kind = .report seq → l = .link0 ∨ o.sent = o.bytes.length →
      (∀ before r after, q.records = before ++ r :: after → r.seq = seq → r.standing = .sending →
        (∀ x ∈ before, x.seq ≠ seq ∨ x.standing ≠ .sending) → ∃ t, exec (.sentNotice l) s = .next t ∧
          Settled (setQueue l { q with resendTimer := some (q.resendTimer.getD (s.now + u.resend * 1000)) } s) t ∧
          (queueOn t l).records[before.length]? = some { r with standing := .inFlight false } ∧ idle t ∧
          (l = .link1 → (queueOn t l).records = before ++ { r with standing := .inFlight false } :: after)) ∧
      ((∀ x ∈ q.records, x.seq ≠ seq ∨ x.standing ≠ .sending) →
        ∃ t, exec (.sentNotice l) s = .next t ∧ Settled s t ∧ idle t ∧ (l = .link1 → queueOn t l = q))) ∧
  ∀ (s : State) (r : BaudRate), s.baud.pending = some r →
    let u := linkOn s .link0
    (s.baud.awaiting = none → u.outbound = none → u.receiver = [] →
      ∃ t, exec .pendingBaudRateApplied s = .next t ∧ Settled { s with baud := ⟨r, none, none⟩ } t) ∧
    (s.baud.awaiting ≠ none ∨ u.outbound ≠ none ∨ u.receiver ≠ [] →
      ∃ t, exec .pendingBaudRateApplied s = .next t ∧ Settled s t)

/-- A record handed to a queue is appended as WAITING under the next report SEQ, dropped and counted when 64 are held, and
discarded when the queue accepts none. At the expiry of the resend timer every IN_FLIGHT record is due again and the timer
restarts; LINK1 keeps them so, and so does LINK0 while it sends a frame, but an idle LINK0 begins the oldest of them at once, its
mark cleared and the others due. A timer that does not run has no expiry. That LINK0 begins a frame at once and LINK1 waits for
its clock is the model's choice (log 14) (R148, R174, R175, R177). -/
def Obligations.QueueEventsActOnTheRecords : Prop :=
  ∀ (s : State) (l : LinkId),
    let q := queueOn s l
    (∀ (r : Report) (rest : List Report), s.transit.toQueue.at_ l = r :: rest →
      let v := { s with transit := { s.transit with toQueue := s.transit.toQueue.put l rest } }
      let i := Instr.reportRecord l
      (q.accepting = true → q.records.length < 64 → ∃ t, exec i s = .next t ∧
        Settled (setQueue l { q with
          records := q.records ++ [⟨r, q.nextSeq, .waiting⟩], nextSeq := q.nextSeq + 1 } v) t ∧
        (l = .link1 ∨ (linkOn s l).outbound ≠ none →
          (queueOn t l).records = q.records ++ [⟨r, q.nextSeq, .waiting⟩] ∧ (linkOn t l).outbound = (linkOn s l).outbound)) ∧
      (q.accepting = true → 64 ≤ q.records.length → ∃ t, exec i s = .next t ∧
        Settled (setQueue l { q with dropped := if q.dropped < 65535 then q.dropped + 1 else 65535 } v) t) ∧
      (q.accepting = false → ∃ t, exec i s = .next t ∧ Settled v t)) ∧
    (s.transit.toQueue.at_ l = [] → ∃ t, exec (.reportRecord l) s = .next t ∧ Settled s t) ∧
    (q.resendTimer = none → ∃ t, exec (.resendExpiry l) s = .next t ∧ Settled s t) ∧
    (q.resendTimer ≠ none →
      let v := { q with records := dueAgain q.records, resendTimer := some (s.now + (linkOn s l).resend * 1000) }
      ∃ t, exec (.resendExpiry l) s = .next t ∧ Settled (setQueue l v s) t ∧
        (l = .link1 ∨ (linkOn s l).outbound ≠ none → queueOn t l = v ∧ (linkOn t l).outbound = (linkOn s l).outbound) ∧
        ∀ before r after d, l = .link0 → reportsNext l s → offersNothing q → q.records = before ++ r :: after →
          r.standing = .inFlight d → (∀ x ∈ before, ∀ d, x.standing ≠ .inFlight d) →
          (linkOn t l).outbound = reportOut r 0 ∧
            queueOn t l = { v with records := before ++ { r with standing := .inFlight false } :: dueAgain after })

/-- The arguments of SET_LINK, laid out as Table 11-3 gives them. -/
def setLinkArgs (a : SetLinkArgs) : List Byte :=
  [linkCode a.target, a.rate.code] ++ le 2 a.timeout ++ le 2 a.resend

/-- The expiry of the supervision timer of an UP link takes it to LOST: its queue is purged and accepts nothing, the last SEQ and
the buffer are gone, every claim of the link is released in resource order with the notices of its FLUSH policies, and LINK_LOST
is raised for the other link while that is not LOST. The receiver, the statistics and the settings stay. A link that is not UP, or
whose timer does not run, is not lost. A reply that is pending and not begun is dropped and its command ends, a duplicate's too;
an accepted RESET then resets the part, and the loss ends there by the model's choice (log 28). A frame being sent, a reply too,
is kept. A command not yet executed is kept as an orphan. The row of an orphan PING, IDENTIFY, QUERY_LINK, unknown code,
SET_ROUTE, SET_LINK, CLAIM, RELEASE or RESET carries it out and drops its reply, with what waited for that reply, a CLAIM being
granted only while its link is UP; that its checks are made at this row is the model's choice (log 33). What the two resets leave
is said by the four ResetLeaves statements (R146, R147, R150, R152, R156, R158, R159, R163, R165, R166, R167, R180). -/
def Obligations.LinkLossReleasesEverything : Prop :=
  (∀ (s : State) (l : LinkId), resetReplyDropped l s → ∃ t, exec (.linkLoss l) s = .next t ∧ ResetsTo .command s t) ∧
  (∀ (s : State) (l : LinkId) (c : Current), (linkOn s l).current = some c → c.orphan = true → c.executed = false →
    (linkOn s l).resetWait = false → (linkOn s l).replyPending = false →
    let seq := c.frame.seq
    let p := c.frame.payload
    let next := fun u : Link => match u.inbound with
      | [] => { u with current := none }
      | f :: rest => { u with current := some ⟨f, false, false⟩, inbound := rest }
    let ends := fun v : State => setLink l (next (linkOn v l)) { v with
      baud := if v.baud.awaiting = some l then { v.baud with awaiting := none } else v.baud }
    let leaves := fun (i : Instr) (v : State) => ∃ t, exec i s = .next t ∧ Settled (ends v) t
    (∀ data, p = 0x01 :: data → leaves (.ping l seq data) s) ∧
    (p = [0x02] → leaves (.identify l seq []) s) ∧
    (∀ m, p = [0x04, linkCode m] → leaves (.queryLink l seq [linkCode m]) s) ∧
    (∀ code args, code ∉ listedCodes → p = code :: args → leaves (.unknownCommand l seq code args) s) ∧
    (∀ m, p = [0x06, linkCode m] → leaves (.setRoute l seq [linkCode m]) { s with route := m }) ∧
    (∀ a : SetLinkArgs, a.timeout = 0 ∨ 50 ≤ a.timeout ∧ a.timeout ≤ 10000 → 10 ≤ a.resend → a.resend ≤ 2000 →
      p = 0x03 :: setLinkArgs a →
      let u := linkOn s a.target
      let timer := if a.timeout = 0 then none
        else if u.state = .up ∧ u.supervision = none then some (s.now + a.timeout * 1000) else u.supervision
      leaves (.setLink l seq (setLinkArgs a))
        (setLink a.target { u with timeout := a.timeout, resend := a.resend, supervision := timer } { s with
          baud := if a.target = .link1 then s.baud
            else if a.rate = s.baud.rate then ⟨s.baud.rate, none, none⟩ else ⟨s.baud.rate, some a.rate, some l⟩ })) ∧
    (∀ (r : Fin 20) (q : LossPolicy), p = [0x10, indexByte r, q.code] →
      let a : List Byte := [indexByte r, q.code]
      ((linkOn s l).state ≠ .up ∨ s.claims[r].owner = some (otherLink l) → leaves (.claim l seq a) s) ∧
      ((linkOn s l).state = .up → s.claims[r].owner ≠ some (otherLink l) →
        leaves (.claim l seq a) { s with claims := s.claims.set r ⟨some l, q⟩ })) ∧
    (∀ r : Fin 20, p = [0x11, indexByte r] → leaves (.release l seq [indexByte r])
      (if s.claims[r].owner = some l then { s with claims := s.claims.set r ⟨none, .keep⟩ } else s)) ∧
    (resetOrphaned l c.frame.seq s → ∃ t, exec (.reset l c.frame.seq []) s = .next t ∧ ResetsTo .command s t)) ∧
  ∀ (s : State) (l : LinkId),
    let u := linkOn s l
    let q := queueOn s l
    let flushed := (List.finRange 20).filter fun r => s.claims[r].owner = some l ∧ s.claims[r].policy = .flush
    (u.state ≠ .up ∨ u.supervision = none → ∃ t, exec (.linkLoss l) s = .next t ∧ Settled s t) ∧
    let once := fun r => if r ∈ flushed then 1 else 0
    let lost := fun (v : Link) (baud : Baud) => raiseUnlessLost (otherLink l) (.linkLost l)
      (setQueue l { q with records := [], resendTimer := none, dropped := 0, accepting := false }
        (setLink l { v with state := .lost, supervision := none, lastSeq := none, inbound := [], holdReports := false }
          { s with
            baud := baud
            claims := Vector.ofFn fun r => if s.claims[r].owner = some l then ⟨none, .keep⟩ else s.claims[r]
            transit := { s.transit with
              csuLoss := s.transit.csuLoss ++ flushed.map lossNotice
              markLoss := Vector.ofFn fun k => s.transit.markLoss[k] + once (trackResource k)
              lineLoss := Vector.ofFn fun n => s.transit.lineLoss[n] + once (lineResource n) } }))
    let loses := fun (v : Link) (baud : Baud) => ∃ t, exec (.linkLoss l) s = .next t ∧ Settled (lost v baud) t ∧
      (linkOn t l).replyPending = false ∧ ∀ o, u.outbound = some o → (linkOn t l).outbound = some o
    let done : Baud := if s.baud.awaiting = some l then { s.baud with awaiting := none } else s.baud
    let stuck := l = .link1 ∨ u.outbound ≠ none ∨ baudHolds s l = true
    (u.state = .up → u.supervision ≠ none →
      (u.current = none → u.replyPending = false → loses u s.baud) ∧
      ∀ c, u.current = some c →
        (c.executed = true → u.replyPending = true → stuck → u.resetWait = false → loses { u with current := none } done) ∧
        (c.executed = true → u.replyPending = false →
          loses { u with current := some { c with orphan := false, frame := { c.frame with resumes := false } } } s.baud) ∧
        (c.executed = false → u.replyPending = false → u.lastSeq ≠ some c.frame.seq →
          loses { u with current := some { c with orphan := true, frame := { c.frame with resumes := false } } } s.baud) ∧
        (c.executed = false → c.orphan = false → u.lastSeq = some c.frame.seq → u.resetWait = false →
          loses { u with current := none, duplicates := countUp u.duplicates } done))

/-! ### The commands of the links -/

/-- `t` has the reply of this frame pending or chosen for sending on link l (R146, R148). -/
def Replying (l : LinkId) (f : List Byte) (t : State) : Prop :=
  (linkOn t l).replyPending = true ∨ ∃ o, (linkOn t l).outbound = some o ∧ o.kind = .reply ∧ o.bytes = f

/-- ACK_REPORTS releases every record up to the IN_FLIGHT one it names, restarts the resend timer while others are IN_FLIGHT and
stops it otherwise, queues OVERFLOW for a nonzero dropped count, and replies with the number released and the number left. A SEQ
that names no IN_FLIGHT record is NOT_FOUND and releases nothing. That each number takes one byte is the model's choice (log 12).
Stated for a link that is not LOST (R177, R178, R179). -/
def Obligations.AckReportsReleasesRecords : Prop :=
  ∀ (s : State) (l : LinkId) (seq n : Byte), Ready l seq s → isLost s l = false →
    let q := queueOn s l
    let i := Instr.ackReports l seq [n]
    let p : List Byte := [0x05, n]
    ((∀ x ∈ q.records, x.seq ≠ n ∨ x.standing.isInFlight = false) → Answered i l seq p .notFound [] s s) ∧
    ∀ before r after, q.records = before ++ r :: after → r.seq = n → r.standing.isInFlight = true →
      (∀ x ∈ before, x.seq ≠ n ∨ x.standing.isInFlight = false) →
      let timer := if after.any (fun x => x.standing.isInFlight) then some (s.now + (linkOn s l).resend * 1000) else none
      let left : Queue :=
        if q.dropped = 0 then { q with records := after, resendTimer := timer }
        else { q with
          records := after ++ [⟨.overflow q.dropped, q.nextSeq, .waiting⟩], resendTimer := timer
          nextSeq := q.nextSeq + 1, dropped := 0 }
      let f := replyTo seq p .ok [BitVec.ofNat 8 (before.length + 1), BitVec.ofNat 8 left.records.length]
      ∃ t, exec i s = .next t ∧ Replying l f t ∧ Settled (setQueue l left (setLink l (answeredLink s l seq p f) s)) t

/-- SET_LINK stores the timeout and the resend time of its target: a timeout of 0 stops the supervision timer, one above 0 starts
a stopped timer of an UP link and leaves a running one; for LINK0 another rate becomes pending until the reply is done, and the
present rate withdraws a pending one. RESET is HELD_BY_OTHER while the other link owns an entry, and else begins the reset wait,
which the end of its reply turns into the reset; what that leaves is said by the four ResetLeaves statements (R151, R152, R156). -/
def Obligations.SetLinkAndResetActOnTheLink : Prop :=
  ∀ (s : State) (l : LinkId) (seq : Byte), Ready l seq s →
    let q := if isLost s l then (queueOn s l).resume else queueOn s l
    (∀ a : SetLinkArgs, a.timeout = 0 ∨ 50 ≤ a.timeout ∧ a.timeout ≤ 10000 → 10 ≤ a.resend → a.resend ≤ 2000 →
      let p : List Byte := 0x03 :: setLinkArgs a
      let f := replyTo seq p .ok []
      let v := setQueue l q (setLink l (answeredLink s l seq p f) { s with
        baud := if a.target = .link1 then s.baud
          else if a.rate = s.baud.rate then ⟨s.baud.rate, none, none⟩ else ⟨s.baud.rate, some a.rate, some l⟩ })
      let u := linkOn v a.target
      let timer := if a.timeout = 0 then none
        else if u.state = .up ∧ u.supervision = none then some (s.now + a.timeout * 1000) else u.supervision
      ∃ t, exec (.setLink l seq (setLinkArgs a)) s = .next t ∧ Replying l f t ∧
        Settled (setLink a.target { u with timeout := a.timeout, resend := a.resend, supervision := timer } v) t) ∧
    ((∃ r : Fin 20, s.claims[r].owner = some (otherLink l)) →
      Answered (.reset l seq []) l seq [0x07] .heldByOther [] s s) ∧
    ((∀ r : Fin 20, s.claims[r].owner ≠ some (otherLink l)) →
      let f := replyTo seq [0x07] .ok []
      ∃ t, exec (.reset l seq []) s = .next t ∧ Replying l f t ∧
        Settled (setQueue l q (setLink l { answeredLink s l seq [0x07] f with resetWait := true } s)) t) ∧
    (resetReplySent l s → ∃ t, exec (.replySent l) s = .next t ∧ ResetsTo .command s t)

/-- PING returns its 0 to 16 bytes (without a count before them by the model's choice, log 12) and refuses more with BAD_LENGTH;
IDENTIFY returns the identity of the part (its sizes are the model's, log 12); SET_ROUTE stores the default report link;
QUERY_LINK changes nothing and shows its own link UP (its layout is the model's, log 12); a code that Table 11-3 does not list is
UNKNOWN_COMMAND. A frame with the last SEQ is not executed, whatever it carries: the stored reply goes out again and the duplicate
is counted (R147, R153, R154, R155, R186). -/
def Obligations.LinkCommandsAreAnswered : Prop :=
  (∀ (s : State) (l : LinkId) (seq : Byte), Ready l seq s →
    (∀ data : List Byte, data.length ≤ 16 → Answered (.ping l seq data) l seq (0x01 :: data) .ok data s s) ∧
    (∀ data : List Byte, 16 < data.length → data.length ≤ 199 →
      Answered (.ping l seq data) l seq (0x01 :: data) .badLength [] s s) ∧
    Answered (.identify l seq []) l seq [0x02] .ok [0x4C, 0x7A, 0x16, 0x04, 0x01, 0x00, 0x02, 4, 16] s s ∧
    (∀ m : LinkId, Answered (.setRoute l seq [linkCode m]) l seq [0x06, linkCode m] .ok [] s { s with route := m }) ∧
    Answered (.queryLink l seq [linkCode (otherLink l)]) l seq [0x04, linkCode (otherLink l)] .ok
      (linkResults s (otherLink l)) s s ∧
    Answered (.queryLink l seq [linkCode l]) l seq [0x04, linkCode l] .ok
      (linkResults (noticed l (linkOn s l) s) l) s s ∧
    ∀ (code : Byte) (args : List Byte), code ∉ listedCodes → args.length ≤ 199 →
      Answered (.unknownCommand l seq code args) l seq (code :: args) .unknownCommand [] s s) ∧
  ∀ (s : State) (l : LinkId) (seq : Byte) (f : List Byte), (linkOn s l).current = none → (linkOn s l).inbound = [] →
    isLost s l = false → (linkOn s l).lastSeq = some seq → (linkOn s l).storedReply = some f →
    let repeated := fun (i : Instr) (p : List Byte) => ∃ t, exec i s = .next t ∧ Replying l f t ∧
      Settled (setLink l { linkOn s l with
        state := .up, supervision := restarted s (linkOn s l), current := some ⟨⟨seq, p, false⟩, true, false⟩
        duplicates := countUp (linkOn s l).duplicates } s) t
    (∀ p : List Byte, 1 ≤ p.length → p.length ≤ 200 → repeated (.duplicate l seq p) p) ∧
    ∀ args : List Byte, args.length ≤ 199 → repeated (.setRoute l seq args) (0x06 :: args)

/-- CLAIM of an entry without owner, or of the sender's own, makes the sender its owner with the policy carried; of the other
link's it is HELD_BY_OTHER; each reply carries the entry. RELEASE of an own entry frees it, and of any other is NOT_OWNER.
QUERY_CLAIMS returns the twenty entries and changes nothing (R158, R159, R160). -/
def Obligations.ClaimsAreGrantedAndReleased : Prop :=
  ∀ (s : State) (l : LinkId) (seq : Byte), Ready l seq s →
    Answered (.queryClaims l seq []) l seq [0x12] .ok
      ((List.finRange 20).flatMap fun r => [ownerCode s.claims[r].owner, s.claims[r].policy.code]) s s ∧
    ∀ r : Fin 20, let c := s.claims[r]
      (∀ p : LossPolicy,
        let a : List Byte := [indexByte r, p.code]
        (c.owner ≠ some (otherLink l) → Answered (.claim l seq a) l seq (0x10 :: a) .ok [ownerCode (some l), p.code] s
          { s with claims := s.claims.set r ⟨some l, p⟩ }) ∧
        (c.owner = some (otherLink l) →
          Answered (.claim l seq a) l seq (0x10 :: a) .heldByOther [ownerCode c.owner, c.policy.code] s s)) ∧
      (c.owner = some l → Answered (.release l seq [indexByte r]) l seq [0x11, indexByte r] .ok [] s
        { s with claims := s.claims.set r ⟨none, .keep⟩ }) ∧
      (c.owner ≠ some l → Answered (.release l seq [indexByte r]) l seq [0x11, indexByte r] .notOwner [] s s)

/-- A row of Table 11-3: a command with the argument bytes `a` of the forms below, its code, whether `a` has a length that the table
gives, and whether it spells operands within their ranges. -/
structure CommandForm where
  command : Instr
  code : Byte
  lengthFits : Prop
  spelled : Prop

/-- The arguments are one track. -/
def onlyTrack (a : List Byte) : Prop := ∃ k : TrackId, a = [indexByte k]
/-- The arguments are one line. -/
def onlyLine (a : List Byte) : Prop := ∃ n : LineId, a = [indexByte n]
/-- The arguments are one link. -/
def onlyLink (a : List Byte) : Prop := ∃ m : LinkId, a = [linkCode m]

/-- The ranges of R94. -/
def templateFits (t : Template) : Prop :=
  t.offset ≤ 2147483647 ∧ (∀ w ∈ t.width, 1 ≤ w ∧ w ≤ 16777215) ∧ ∀ x ∈ t.tolerance, x ≤ 2147483647

/-- The ranges of R80 and R96. -/
def markConfigFits (c : MarkConfig) : Prop :=
  c.blank ≤ 16777215 ∧ c.pitch ≤ 2147483647 ∧ (if c.pitch = 0 then c.tolerance = 0 else c.tolerance < c.pitch) ∧ c.limit ≤ 15

/-- The ranges of R103. -/
def profileFits (f : Profile) : Prop :=
  1 ≤ f.width ∧ f.width ≤ (if f.mode = .time then 65535 else 16777215) ∧ f.holdoff ≤ 65535 ∧ f.minSpeed ≤ 2147483647 ∧
    f.maxOn ≤ (if f.mode = .time then 0 else 65535)

/-- The line offsets of R100. -/
def lineFits (c : LineConfig) : Prop := -1048576 ≤ c.offset ∧ c.offset ≤ 1048575

/-- The ranges of R151. -/
def setLinkFits (x : SetLinkArgs) : Prop :=
  (x.timeout = 0 ∨ 50 ≤ x.timeout ∧ x.timeout ≤ 10000) ∧ 10 ≤ x.resend ∧ x.resend ≤ 2000

/-- The sweep periods of R132 and R133. -/
def periodFits (ms : Nat) : Prop := ms = 0 ∨ 100 ≤ ms ∧ ms ≤ 60000

/-- The bytes that a field of this size adds to a command when its flag bit is set (R186, R187). -/
def flagged (flags : Byte) (bit size : Nat) : Nat := if flags.getLsbD bit then size else 0

/-- The argument bytes of an ADD_CUE with the flags byte it carries (Table 11-6, R187). -/
def addCueLength (a : List Byte) : Nat :=
  let f := a.getD 2 0
  12 + flagged f 0 1 + flagged f 1 4 + flagged f 2 4 + flagged f 3 6

/-- The argument bytes of a SET_TEMPLATE with the flags byte it carries (Table 11-3, R186). -/
def setTemplateLength (a : List Byte) : Nat :=
  let f := a.getD 2 0
  9 + flagged f 1 1 + flagged f 2 4 + flagged f 3 4

/-- The commands of the links and claims (Table 11-3). -/
def linkForms (l : LinkId) (seq : Byte) (a : List Byte) : List CommandForm :=
  let n := a.length
  [⟨.ping l seq a, 0x01, n ≤ 16, True⟩, ⟨.identify l seq a, 0x02, n = 0, True⟩,
   ⟨.setLink l seq a, 0x03, n = 6, ∃ x, setLinkFits x ∧ a = setLinkArgs x⟩,
   ⟨.queryLink l seq a, 0x04, n = 1, onlyLink a⟩, ⟨.ackReports l seq a, 0x05, n = 1, True⟩,
   ⟨.setRoute l seq a, 0x06, n = 1, onlyLink a⟩, ⟨.reset l seq a, 0x07, n = 0, True⟩,
   ⟨.claim l seq a, 0x10, n = 2, ∃ (r : Fin 20) (p : LossPolicy), a = [indexByte r, p.code]⟩,
   ⟨.release l seq a, 0x11, n = 1, ∃ r : Fin 20, a = [indexByte r]⟩, ⟨.queryClaims l seq a, 0x12, n = 0, True⟩]

/-- The commands of the tracks (Table 11-3). -/
def trackForms (l : LinkId) (seq : Byte) (a : List Byte) : List CommandForm :=
  let n := a.length
  [⟨.setTrack l seq a, 0x20, n = 21, ∃ k c, trackConfigFits c ∧ a = setTrackArgs k c⟩,
   ⟨.enableTrack l seq a, 0x21, n = 1, onlyTrack a⟩, ⟨.disableTrack l seq a, 0x22, n = 1, onlyTrack a⟩,
   ⟨.preset l seq a, 0x23, n = 7, ∃ (k : TrackId) (x : Int), inRange x = true ∧ a = indexByte k :: leInt 6 x⟩,
   ⟨.home l seq a, 0x24, n = 8, ∃ k : TrackId,
      (∃ x, inRange x = true ∧ a = indexByte k :: 1 :: leInt 6 x) ∨ ∃ v : List Byte, v.length = 6 ∧ a = indexByte k :: 0 :: v⟩,
   ⟨.rebase l seq a, 0x25, n = 7, ∃ (k : TrackId) (x : Int), inRange x = true ∧ a = indexByte k :: leInt 6 x⟩,
   ⟨.queryTrack l seq a, 0x26, n = 1, onlyTrack a⟩, ⟨.clearTrackFault l seq a, 0x27, n = 1, onlyTrack a⟩,
   ⟨.setSim l seq a, 0x28, n = 5,
      ∃ (k : TrackId) (v : Int), -10000000 ≤ v ∧ v ≤ 10000000 ∧ a = indexByte k :: leInt 4 v⟩,
   ⟨.clearStats l seq a, 0x29, n = 1, onlyTrack a⟩]

/-- The commands of the schedules and mark units (Table 11-3). -/
def cueForms (l : LinkId) (seq : Byte) (a : List Byte) : List CommandForm :=
  let n := a.length
  [⟨.addCue l seq a, 0x30, n = addCueLength a, ∃ x, addCueFits x ∧ a = addCueArgs x⟩,
   ⟨.cancelCue l seq a, 0x31, n = 3, ∃ (k : TrackId) (id : BitVec 16), a = indexByte k :: le 2 id.toNat⟩,
   ⟨.flush l seq a, 0x32, n = 1 ∨ n = 2, onlyTrack a ∨ ∃ (k : TrackId) (m : LineId), a = [indexByte k, indexByte m]⟩,
   ⟨.queryCue l seq a, 0x33, n = 6, ∃ (k : TrackId) (key : CueKey), a = indexByte k :: key.origin :: key.bytes⟩,
   ⟨.querySchedule l seq a, 0x34, n = 4, ∃ (k : TrackId) (i m : Nat),
      i ≤ 511 ∧ 1 ≤ m ∧ m ≤ 8 ∧ a = indexByte k :: le 2 i ++ [BitVec.ofNat 8 m]⟩,
   ⟨.queryPool l seq a, 0x35, n = 0, True⟩,
   ⟨.setMark l seq a, 0x40, n = 16, ∃ k c, markConfigFits c ∧ a = setMarkArgs k c⟩,
   ⟨.armMarks l seq a, 0x41, n = 1, onlyTrack a⟩, ⟨.disarmMarks l seq a, 0x42, n = 1, onlyTrack a⟩,
   ⟨.setTemplate l seq a, 0x43, n = setTemplateLength a, ∃ k e t, templateFits t ∧ a = setTemplateArgs k e t⟩,
   ⟨.queryMarks l seq a, 0x44, n = 1, onlyTrack a⟩]

/-- The commands of the lines and the Load Supervisor (Table 11-3). -/
def lineForms (l : LinkId) (seq : Byte) (a : List Byte) : List CommandForm :=
  let n := a.length
  [⟨.setLine l seq a, 0x50, n = 10, ∃ m c, lineFits c ∧ a = setLineArgs m c⟩,
   ⟨.setProfile l seq a, 0x51, n = 14, ∃ i f, profileFits f ∧ a = setProfileArgs i f⟩,
   ⟨.forceLine l seq a, 0x52, n = 3, ∃ (m : LineId) (w : Nat), 1 ≤ w ∧ w ≤ 65535 ∧ a = indexByte m :: le 2 w⟩,
   ⟨.queryLine l seq a, 0x53, n = 1, onlyLine a⟩,
   ⟨.clearLineFault l seq a, 0x54, n = 2, ∃ (m : LineId) (ks : FaultSet), ks ≠ ⟨false, false, false⟩ ∧ a = [indexByte m, ks.code]⟩,
   ⟨.setSupervision l seq a, 0x55, n = 2 ∨ n = 6, ∃ ms, periodFits ms ∧ (a = le 2 ms ∨
      ∃ (m : LineId) (masks : FaultSet) (b : Nat), b ≤ 1000 ∧ a = le 2 ms ++ [indexByte m, masks.code] ++ le 2 b)⟩,
   ⟨.startSweep l seq a, 0x56, n = 0, True⟩, ⟨.querySweep l seq a, 0x57, n = 0, True⟩]

/-- Every command of Table 11-3 with the argument bytes `a`. -/
def commandForms (l : LinkId) (seq : Byte) (a : List Byte) : List CommandForm :=
  linkForms l seq a ++ trackForms l seq a ++ cueForms l seq a ++ lineForms l seq a

/-- For every command of Table 11-3, argument bytes of a length that the table does not give are BAD_LENGTH, whatever they hold,
and bytes of the right length that spell no operands within their ranges are BAD_VALUE; that a key of QUERY_CUE with a nonzero
fixed byte spells none is the model's choice (log 13). A command that spells its operands and acts on a track or line of the other
link (Table 9-2) is HELD_BY_OTHER, whatever that track or line is doing. Each refusal changes nothing (R161, R186, R187). -/
def Obligations.CommandsAreValidatedInOrder : Prop :=
  ∀ (s : State) (l : LinkId) (seq : Byte), Ready l seq s →
    (∀ a : List Byte, a.length ≤ 199 → ∀ x ∈ commandForms l seq a,
      (¬x.lengthFits → Answered x.command l seq (x.code :: a) .badLength [] s s) ∧
      (x.lengthFits → ¬x.spelled → Answered x.command l seq (x.code :: a) .badValue [] s s)) ∧
    let held := fun (i : List Byte → Instr) (code : Byte) (a : List Byte) =>
      Answered (i a) l seq (code :: a) .heldByOther [] s s
    (∀ k : TrackId, trackOwner s k = some (otherLink l) → let a : List Byte := [indexByte k]
      held (.enableTrack l seq) 0x21 a ∧ held (.disableTrack l seq) 0x22 a ∧ held (.clearTrackFault l seq) 0x27 a ∧
      held (.clearStats l seq) 0x29 a ∧ held (.flush l seq) 0x32 a ∧ held (.armMarks l seq) 0x41 a ∧
      held (.disarmMarks l seq) 0x42 a ∧
      (∀ x, inRange x = true → held (.preset l seq) 0x23 (indexByte k :: leInt 6 x) ∧
        held (.rebase l seq) 0x25 (indexByte k :: leInt 6 x) ∧ held (.home l seq) 0x24 (indexByte k :: 1 :: leInt 6 x)) ∧
      (∀ v : List Byte, v.length = 6 → held (.home l seq) 0x24 (indexByte k :: 0 :: v)) ∧
      (∀ v : Int, -10000000 ≤ v → v ≤ 10000000 → held (.setSim l seq) 0x28 (indexByte k :: leInt 4 v)) ∧
      (∀ id : BitVec 16, held (.cancelCue l seq) 0x31 (indexByte k :: le 2 id.toNat)) ∧
      (∀ n : LineId, held (.flush l seq) 0x32 [indexByte k, indexByte n]) ∧
      (∀ c, trackConfigFits c → held (.setTrack l seq) 0x20 (setTrackArgs k c)) ∧
      (∀ c, markConfigFits c → held (.setMark l seq) 0x40 (setMarkArgs k c)) ∧
      (∀ e t, templateFits t → held (.setTemplate l seq) 0x43 (setTemplateArgs k e t)) ∧
      ∀ c, addCueFits c → c.track = k → held (.addCue l seq) 0x30 (addCueArgs c)) ∧
    ∀ n : LineId, lineOwner s n = some (otherLink l) →
      (∀ w, 1 ≤ w → w ≤ 65535 → held (.forceLine l seq) 0x52 (indexByte n :: le 2 w)) ∧
      (∀ ks : FaultSet, ks ≠ ⟨false, false, false⟩ → held (.clearLineFault l seq) 0x54 [indexByte n, ks.code]) ∧
      (∀ c, lineFits c → held (.setLine l seq) 0x50 (setLineArgs n c)) ∧
      (∀ k e t, templateFits t → t.line = n → held (.setTemplate l seq) 0x43 (setTemplateArgs k e t)) ∧
      (∀ (ms b : Nat) (masks : FaultSet), periodFits ms → b ≤ 1000 →
        held (.setSupervision l seq) 0x55 (le 2 ms ++ [indexByte n, masks.code] ++ le 2 b)) ∧
      ∀ c, addCueFits c → c.line = n → held (.addCue l seq) 0x30 (addCueArgs c)

/-! ### What every step keeps -/

/-- Every step keeps the lines sound: DISABLED exactly when not enabled, a pulse exactly in ON, a holdoff timer exactly in HOLDOFF,
and neither ON nor TEST under an asserted inhibit. -/
def Obligations.EveryStepKeepsLinesSound : Prop := ∀ s t : State, LinesSound s → step s = .next t → LinesSound t

/-- Every step keeps the tracks sound: the settle timer exactly in SETTLING, the velocity window exactly while enabled, the sample
timer exactly while enabled with source SAMPLED, a transfer only while that timer runs, a cause exactly in FAULT, and a DISABLED
track with velocity 0, an empty schedule and its mark unit OFF (R6, R8, R11, R14, R19, R29). -/
def Obligations.EveryStepKeepsTracksSound : Prop := ∀ s t : State, TracksSound s → step s = .next t → TracksSound t

/-- Every step keeps the part within its sizes: the cue pool, the schedule limits and the report queues, with the queue of a LOST
link empty and not accepting. -/
def Obligations.EveryStepKeepsSizes : Prop := ∀ s t : State, SizesSound s → step s = .next t → SizesSound t

/-- Every step keeps the claims sound: no link that is not UP owns a resource, and a free entry holds KEEP. -/
def Obligations.EveryStepKeepsClaimsSound : Prop := ∀ s t : State, ClaimsSound s → step s = .next t → ClaimsSound t

/-- The four conditions hold at reset. -/
def Obligations.ResetIsSound : Prop :=
  LinesSound State.reset ∧ TracksSound State.reset ∧ SizesSound State.reset ∧ ClaimsSound State.reset
end

