-- ==== Sys2Proof/Laws/State.lean ====
section
/-! SUPPORT. One lemma per field of the state for each update of Machine/Ops.lean, and for the raising of a report. -/

namespace Sys2Proof.Machine

variable (s : State)

/-! `setTrack` -/

@[simp] theorem setTrack_tracks (k : TrackId) (t : Track) : (setTrack k t s).tracks = s.tracks.set k t := rfl
@[simp] theorem setTrack_csu (k : TrackId) (t : Track) : (setTrack k t s).csu = s.csu := rfl
@[simp] theorem setTrack_marks (k : TrackId) (t : Track) : (setTrack k t s).marks = s.marks := rfl
@[simp] theorem setTrack_lines (k : TrackId) (t : Track) : (setTrack k t s).lines = s.lines := rfl
@[simp] theorem setTrack_profiles (k : TrackId) (t : Track) : (setTrack k t s).profiles = s.profiles := rfl
@[simp] theorem setTrack_inhibited (k : TrackId) (t : Track) : (setTrack k t s).inhibited = s.inhibited := rfl
@[simp] theorem setTrack_loads (k : TrackId) (t : Track) : (setTrack k t s).loads = s.loads := rfl
@[simp] theorem setTrack_sweep (k : TrackId) (t : Track) : (setTrack k t s).sweep = s.sweep := rfl
@[simp] theorem setTrack_links (k : TrackId) (t : Track) : (setTrack k t s).links = s.links := rfl
@[simp] theorem setTrack_baud (k : TrackId) (t : Track) : (setTrack k t s).baud = s.baud := rfl
@[simp] theorem setTrack_route (k : TrackId) (t : Track) : (setTrack k t s).route = s.route := rfl
@[simp] theorem setTrack_claims (k : TrackId) (t : Track) : (setTrack k t s).claims = s.claims := rfl
@[simp] theorem setTrack_queues (k : TrackId) (t : Track) : (setTrack k t s).queues = s.queues := rfl
@[simp] theorem setTrack_transit (k : TrackId) (t : Track) : (setTrack k t s).transit = s.transit := rfl
@[simp] theorem setTrack_pins (k : TrackId) (t : Track) : (setTrack k t s).pins = s.pins := rfl
@[simp] theorem setTrack_now (k : TrackId) (t : Track) : (setTrack k t s).now = s.now := rfl
@[simp] theorem setTrack_pending (k : TrackId) (t : Track) : (setTrack k t s).pending = s.pending := rfl

/-! `setMark` -/

@[simp] theorem setMark_tracks (k : TrackId) (m : Mark) : (setMark k m s).tracks = s.tracks := rfl
@[simp] theorem setMark_csu (k : TrackId) (m : Mark) : (setMark k m s).csu = s.csu := rfl
@[simp] theorem setMark_marks (k : TrackId) (m : Mark) : (setMark k m s).marks = s.marks.set k m := rfl
@[simp] theorem setMark_lines (k : TrackId) (m : Mark) : (setMark k m s).lines = s.lines := rfl
@[simp] theorem setMark_profiles (k : TrackId) (m : Mark) : (setMark k m s).profiles = s.profiles := rfl
@[simp] theorem setMark_inhibited (k : TrackId) (m : Mark) : (setMark k m s).inhibited = s.inhibited := rfl
@[simp] theorem setMark_loads (k : TrackId) (m : Mark) : (setMark k m s).loads = s.loads := rfl
@[simp] theorem setMark_sweep (k : TrackId) (m : Mark) : (setMark k m s).sweep = s.sweep := rfl
@[simp] theorem setMark_links (k : TrackId) (m : Mark) : (setMark k m s).links = s.links := rfl
@[simp] theorem setMark_baud (k : TrackId) (m : Mark) : (setMark k m s).baud = s.baud := rfl
@[simp] theorem setMark_route (k : TrackId) (m : Mark) : (setMark k m s).route = s.route := rfl
@[simp] theorem setMark_claims (k : TrackId) (m : Mark) : (setMark k m s).claims = s.claims := rfl
@[simp] theorem setMark_queues (k : TrackId) (m : Mark) : (setMark k m s).queues = s.queues := rfl
@[simp] theorem setMark_transit (k : TrackId) (m : Mark) : (setMark k m s).transit = s.transit := rfl
@[simp] theorem setMark_pins (k : TrackId) (m : Mark) : (setMark k m s).pins = s.pins := rfl
@[simp] theorem setMark_now (k : TrackId) (m : Mark) : (setMark k m s).now = s.now := rfl
@[simp] theorem setMark_pending (k : TrackId) (m : Mark) : (setMark k m s).pending = s.pending := rfl

/-! `setLine` -/

@[simp] theorem setLine_tracks (n : LineId) (u : Line) : (setLine n u s).tracks = s.tracks := rfl
@[simp] theorem setLine_csu (n : LineId) (u : Line) : (setLine n u s).csu = s.csu := rfl
@[simp] theorem setLine_marks (n : LineId) (u : Line) : (setLine n u s).marks = s.marks := rfl
@[simp] theorem setLine_lines (n : LineId) (u : Line) : (setLine n u s).lines = s.lines.set n u := rfl
@[simp] theorem setLine_profiles (n : LineId) (u : Line) : (setLine n u s).profiles = s.profiles := rfl
@[simp] theorem setLine_inhibited (n : LineId) (u : Line) : (setLine n u s).inhibited = s.inhibited := rfl
@[simp] theorem setLine_loads (n : LineId) (u : Line) : (setLine n u s).loads = s.loads := rfl
@[simp] theorem setLine_sweep (n : LineId) (u : Line) : (setLine n u s).sweep = s.sweep := rfl
@[simp] theorem setLine_links (n : LineId) (u : Line) : (setLine n u s).links = s.links := rfl
@[simp] theorem setLine_baud (n : LineId) (u : Line) : (setLine n u s).baud = s.baud := rfl
@[simp] theorem setLine_route (n : LineId) (u : Line) : (setLine n u s).route = s.route := rfl
@[simp] theorem setLine_claims (n : LineId) (u : Line) : (setLine n u s).claims = s.claims := rfl
@[simp] theorem setLine_queues (n : LineId) (u : Line) : (setLine n u s).queues = s.queues := rfl
@[simp] theorem setLine_transit (n : LineId) (u : Line) : (setLine n u s).transit = s.transit := rfl
@[simp] theorem setLine_pins (n : LineId) (u : Line) : (setLine n u s).pins = s.pins := rfl
@[simp] theorem setLine_now (n : LineId) (u : Line) : (setLine n u s).now = s.now := rfl
@[simp] theorem setLine_pending (n : LineId) (u : Line) : (setLine n u s).pending = s.pending := rfl

/-! `setLoad` -/

@[simp] theorem setLoad_tracks (n : LineId) (u : Load) : (setLoad n u s).tracks = s.tracks := rfl
@[simp] theorem setLoad_csu (n : LineId) (u : Load) : (setLoad n u s).csu = s.csu := rfl
@[simp] theorem setLoad_marks (n : LineId) (u : Load) : (setLoad n u s).marks = s.marks := rfl
@[simp] theorem setLoad_lines (n : LineId) (u : Load) : (setLoad n u s).lines = s.lines := rfl
@[simp] theorem setLoad_profiles (n : LineId) (u : Load) : (setLoad n u s).profiles = s.profiles := rfl
@[simp] theorem setLoad_inhibited (n : LineId) (u : Load) : (setLoad n u s).inhibited = s.inhibited := rfl
@[simp] theorem setLoad_loads (n : LineId) (u : Load) : (setLoad n u s).loads = s.loads.set n u := rfl
@[simp] theorem setLoad_sweep (n : LineId) (u : Load) : (setLoad n u s).sweep = s.sweep := rfl
@[simp] theorem setLoad_links (n : LineId) (u : Load) : (setLoad n u s).links = s.links := rfl
@[simp] theorem setLoad_baud (n : LineId) (u : Load) : (setLoad n u s).baud = s.baud := rfl
@[simp] theorem setLoad_route (n : LineId) (u : Load) : (setLoad n u s).route = s.route := rfl
@[simp] theorem setLoad_claims (n : LineId) (u : Load) : (setLoad n u s).claims = s.claims := rfl
@[simp] theorem setLoad_queues (n : LineId) (u : Load) : (setLoad n u s).queues = s.queues := rfl
@[simp] theorem setLoad_transit (n : LineId) (u : Load) : (setLoad n u s).transit = s.transit := rfl
@[simp] theorem setLoad_pins (n : LineId) (u : Load) : (setLoad n u s).pins = s.pins := rfl
@[simp] theorem setLoad_now (n : LineId) (u : Load) : (setLoad n u s).now = s.now := rfl
@[simp] theorem setLoad_pending (n : LineId) (u : Load) : (setLoad n u s).pending = s.pending := rfl

/-! `putProfile` -/

@[simp] theorem putProfile_tracks (i : ProfileId) (p : Profile) : (putProfile i p s).tracks = s.tracks := rfl
@[simp] theorem putProfile_csu (i : ProfileId) (p : Profile) : (putProfile i p s).csu = s.csu := rfl
@[simp] theorem putProfile_marks (i : ProfileId) (p : Profile) : (putProfile i p s).marks = s.marks := rfl
@[simp] theorem putProfile_lines (i : ProfileId) (p : Profile) : (putProfile i p s).lines = s.lines := rfl
@[simp] theorem putProfile_profiles (i : ProfileId) (p : Profile) : (putProfile i p s).profiles = s.profiles.set i p := rfl
@[simp] theorem putProfile_inhibited (i : ProfileId) (p : Profile) : (putProfile i p s).inhibited = s.inhibited := rfl
@[simp] theorem putProfile_loads (i : ProfileId) (p : Profile) : (putProfile i p s).loads = s.loads := rfl
@[simp] theorem putProfile_sweep (i : ProfileId) (p : Profile) : (putProfile i p s).sweep = s.sweep := rfl
@[simp] theorem putProfile_links (i : ProfileId) (p : Profile) : (putProfile i p s).links = s.links := rfl
@[simp] theorem putProfile_baud (i : ProfileId) (p : Profile) : (putProfile i p s).baud = s.baud := rfl
@[simp] theorem putProfile_route (i : ProfileId) (p : Profile) : (putProfile i p s).route = s.route := rfl
@[simp] theorem putProfile_claims (i : ProfileId) (p : Profile) : (putProfile i p s).claims = s.claims := rfl
@[simp] theorem putProfile_queues (i : ProfileId) (p : Profile) : (putProfile i p s).queues = s.queues := rfl
@[simp] theorem putProfile_transit (i : ProfileId) (p : Profile) : (putProfile i p s).transit = s.transit := rfl
@[simp] theorem putProfile_pins (i : ProfileId) (p : Profile) : (putProfile i p s).pins = s.pins := rfl
@[simp] theorem putProfile_now (i : ProfileId) (p : Profile) : (putProfile i p s).now = s.now := rfl
@[simp] theorem putProfile_pending (i : ProfileId) (p : Profile) : (putProfile i p s).pending = s.pending := rfl

/-! `setClaim` -/

@[simp] theorem setClaim_tracks (r : Fin 20) (c : Claim) : (setClaim r c s).tracks = s.tracks := rfl
@[simp] theorem setClaim_csu (r : Fin 20) (c : Claim) : (setClaim r c s).csu = s.csu := rfl
@[simp] theorem setClaim_marks (r : Fin 20) (c : Claim) : (setClaim r c s).marks = s.marks := rfl
@[simp] theorem setClaim_lines (r : Fin 20) (c : Claim) : (setClaim r c s).lines = s.lines := rfl
@[simp] theorem setClaim_profiles (r : Fin 20) (c : Claim) : (setClaim r c s).profiles = s.profiles := rfl
@[simp] theorem setClaim_inhibited (r : Fin 20) (c : Claim) : (setClaim r c s).inhibited = s.inhibited := rfl
@[simp] theorem setClaim_loads (r : Fin 20) (c : Claim) : (setClaim r c s).loads = s.loads := rfl
@[simp] theorem setClaim_sweep (r : Fin 20) (c : Claim) : (setClaim r c s).sweep = s.sweep := rfl
@[simp] theorem setClaim_links (r : Fin 20) (c : Claim) : (setClaim r c s).links = s.links := rfl
@[simp] theorem setClaim_baud (r : Fin 20) (c : Claim) : (setClaim r c s).baud = s.baud := rfl
@[simp] theorem setClaim_route (r : Fin 20) (c : Claim) : (setClaim r c s).route = s.route := rfl
@[simp] theorem setClaim_claims (r : Fin 20) (c : Claim) : (setClaim r c s).claims = s.claims.set r c := rfl
@[simp] theorem setClaim_queues (r : Fin 20) (c : Claim) : (setClaim r c s).queues = s.queues := rfl
@[simp] theorem setClaim_transit (r : Fin 20) (c : Claim) : (setClaim r c s).transit = s.transit := rfl
@[simp] theorem setClaim_pins (r : Fin 20) (c : Claim) : (setClaim r c s).pins = s.pins := rfl
@[simp] theorem setClaim_now (r : Fin 20) (c : Claim) : (setClaim r c s).now = s.now := rfl
@[simp] theorem setClaim_pending (r : Fin 20) (c : Claim) : (setClaim r c s).pending = s.pending := rfl

/-! `setLink` -/

@[simp] theorem setLink_tracks (l : LinkId) (u : Link) : (setLink l u s).tracks = s.tracks := rfl
@[simp] theorem setLink_csu (l : LinkId) (u : Link) : (setLink l u s).csu = s.csu := rfl
@[simp] theorem setLink_marks (l : LinkId) (u : Link) : (setLink l u s).marks = s.marks := rfl
@[simp] theorem setLink_lines (l : LinkId) (u : Link) : (setLink l u s).lines = s.lines := rfl
@[simp] theorem setLink_profiles (l : LinkId) (u : Link) : (setLink l u s).profiles = s.profiles := rfl
@[simp] theorem setLink_inhibited (l : LinkId) (u : Link) : (setLink l u s).inhibited = s.inhibited := rfl
@[simp] theorem setLink_loads (l : LinkId) (u : Link) : (setLink l u s).loads = s.loads := rfl
@[simp] theorem setLink_sweep (l : LinkId) (u : Link) : (setLink l u s).sweep = s.sweep := rfl
@[simp] theorem setLink_links (l : LinkId) (u : Link) : (setLink l u s).links = s.links.put l u := rfl
@[simp] theorem setLink_baud (l : LinkId) (u : Link) : (setLink l u s).baud = s.baud := rfl
@[simp] theorem setLink_route (l : LinkId) (u : Link) : (setLink l u s).route = s.route := rfl
@[simp] theorem setLink_claims (l : LinkId) (u : Link) : (setLink l u s).claims = s.claims := rfl
@[simp] theorem setLink_queues (l : LinkId) (u : Link) : (setLink l u s).queues = s.queues := rfl
@[simp] theorem setLink_transit (l : LinkId) (u : Link) : (setLink l u s).transit = s.transit := rfl
@[simp] theorem setLink_pins (l : LinkId) (u : Link) : (setLink l u s).pins = s.pins := rfl
@[simp] theorem setLink_now (l : LinkId) (u : Link) : (setLink l u s).now = s.now := rfl
@[simp] theorem setLink_pending (l : LinkId) (u : Link) : (setLink l u s).pending = s.pending := rfl

/-! `setQueue` -/

@[simp] theorem setQueue_tracks (l : LinkId) (q : Queue) : (setQueue l q s).tracks = s.tracks := rfl
@[simp] theorem setQueue_csu (l : LinkId) (q : Queue) : (setQueue l q s).csu = s.csu := rfl
@[simp] theorem setQueue_marks (l : LinkId) (q : Queue) : (setQueue l q s).marks = s.marks := rfl
@[simp] theorem setQueue_lines (l : LinkId) (q : Queue) : (setQueue l q s).lines = s.lines := rfl
@[simp] theorem setQueue_profiles (l : LinkId) (q : Queue) : (setQueue l q s).profiles = s.profiles := rfl
@[simp] theorem setQueue_inhibited (l : LinkId) (q : Queue) : (setQueue l q s).inhibited = s.inhibited := rfl
@[simp] theorem setQueue_loads (l : LinkId) (q : Queue) : (setQueue l q s).loads = s.loads := rfl
@[simp] theorem setQueue_sweep (l : LinkId) (q : Queue) : (setQueue l q s).sweep = s.sweep := rfl
@[simp] theorem setQueue_links (l : LinkId) (q : Queue) : (setQueue l q s).links = s.links := rfl
@[simp] theorem setQueue_baud (l : LinkId) (q : Queue) : (setQueue l q s).baud = s.baud := rfl
@[simp] theorem setQueue_route (l : LinkId) (q : Queue) : (setQueue l q s).route = s.route := rfl
@[simp] theorem setQueue_claims (l : LinkId) (q : Queue) : (setQueue l q s).claims = s.claims := rfl
@[simp] theorem setQueue_queues (l : LinkId) (q : Queue) : (setQueue l q s).queues = s.queues.put l q := rfl
@[simp] theorem setQueue_transit (l : LinkId) (q : Queue) : (setQueue l q s).transit = s.transit := rfl
@[simp] theorem setQueue_pins (l : LinkId) (q : Queue) : (setQueue l q s).pins = s.pins := rfl
@[simp] theorem setQueue_now (l : LinkId) (q : Queue) : (setQueue l q s).now = s.now := rfl
@[simp] theorem setQueue_pending (l : LinkId) (q : Queue) : (setQueue l q s).pending = s.pending := rfl

/-! `setSchedule` -/

@[simp] theorem setSchedule_tracks (k : TrackId) (cs : List Cue) : (setSchedule k cs s).tracks = s.tracks := rfl
@[simp] theorem setSchedule_csu (k : TrackId) (cs : List Cue) : (setSchedule k cs s).csu = { s.csu with schedules := s.csu.schedules.set k cs } := rfl
@[simp] theorem setSchedule_marks (k : TrackId) (cs : List Cue) : (setSchedule k cs s).marks = s.marks := rfl
@[simp] theorem setSchedule_lines (k : TrackId) (cs : List Cue) : (setSchedule k cs s).lines = s.lines := rfl
@[simp] theorem setSchedule_profiles (k : TrackId) (cs : List Cue) : (setSchedule k cs s).profiles = s.profiles := rfl
@[simp] theorem setSchedule_inhibited (k : TrackId) (cs : List Cue) : (setSchedule k cs s).inhibited = s.inhibited := rfl
@[simp] theorem setSchedule_loads (k : TrackId) (cs : List Cue) : (setSchedule k cs s).loads = s.loads := rfl
@[simp] theorem setSchedule_sweep (k : TrackId) (cs : List Cue) : (setSchedule k cs s).sweep = s.sweep := rfl
@[simp] theorem setSchedule_links (k : TrackId) (cs : List Cue) : (setSchedule k cs s).links = s.links := rfl
@[simp] theorem setSchedule_baud (k : TrackId) (cs : List Cue) : (setSchedule k cs s).baud = s.baud := rfl
@[simp] theorem setSchedule_route (k : TrackId) (cs : List Cue) : (setSchedule k cs s).route = s.route := rfl
@[simp] theorem setSchedule_claims (k : TrackId) (cs : List Cue) : (setSchedule k cs s).claims = s.claims := rfl
@[simp] theorem setSchedule_queues (k : TrackId) (cs : List Cue) : (setSchedule k cs s).queues = s.queues := rfl
@[simp] theorem setSchedule_transit (k : TrackId) (cs : List Cue) : (setSchedule k cs s).transit = s.transit := rfl
@[simp] theorem setSchedule_pins (k : TrackId) (cs : List Cue) : (setSchedule k cs s).pins = s.pins := rfl
@[simp] theorem setSchedule_now (k : TrackId) (cs : List Cue) : (setSchedule k cs s).now = s.now := rfl
@[simp] theorem setSchedule_pending (k : TrackId) (cs : List Cue) : (setSchedule k cs s).pending = s.pending := rfl

/-! `setMode` -/

@[simp] theorem setMode_tracks (k : TrackId) (m : EvalMode) : (setMode k m s).tracks = s.tracks := rfl
@[simp] theorem setMode_csu (k : TrackId) (m : EvalMode) : (setMode k m s).csu = { s.csu with modes := s.csu.modes.set k m } := rfl
@[simp] theorem setMode_marks (k : TrackId) (m : EvalMode) : (setMode k m s).marks = s.marks := rfl
@[simp] theorem setMode_lines (k : TrackId) (m : EvalMode) : (setMode k m s).lines = s.lines := rfl
@[simp] theorem setMode_profiles (k : TrackId) (m : EvalMode) : (setMode k m s).profiles = s.profiles := rfl
@[simp] theorem setMode_inhibited (k : TrackId) (m : EvalMode) : (setMode k m s).inhibited = s.inhibited := rfl
@[simp] theorem setMode_loads (k : TrackId) (m : EvalMode) : (setMode k m s).loads = s.loads := rfl
@[simp] theorem setMode_sweep (k : TrackId) (m : EvalMode) : (setMode k m s).sweep = s.sweep := rfl
@[simp] theorem setMode_links (k : TrackId) (m : EvalMode) : (setMode k m s).links = s.links := rfl
@[simp] theorem setMode_baud (k : TrackId) (m : EvalMode) : (setMode k m s).baud = s.baud := rfl
@[simp] theorem setMode_route (k : TrackId) (m : EvalMode) : (setMode k m s).route = s.route := rfl
@[simp] theorem setMode_claims (k : TrackId) (m : EvalMode) : (setMode k m s).claims = s.claims := rfl
@[simp] theorem setMode_queues (k : TrackId) (m : EvalMode) : (setMode k m s).queues = s.queues := rfl
@[simp] theorem setMode_transit (k : TrackId) (m : EvalMode) : (setMode k m s).transit = s.transit := rfl
@[simp] theorem setMode_pins (k : TrackId) (m : EvalMode) : (setMode k m s).pins = s.pins := rfl
@[simp] theorem setMode_now (k : TrackId) (m : EvalMode) : (setMode k m s).now = s.now := rfl
@[simp] theorem setMode_pending (k : TrackId) (m : EvalMode) : (setMode k m s).pending = s.pending := rfl

/-! `setTaken` -/

@[simp] theorem setTaken_tracks (k : TrackId) (x : Int) : (setTaken k x s).tracks = s.tracks := rfl
@[simp] theorem setTaken_csu (k : TrackId) (x : Int) : (setTaken k x s).csu = { s.csu with taken := s.csu.taken.set k x } := rfl
@[simp] theorem setTaken_marks (k : TrackId) (x : Int) : (setTaken k x s).marks = s.marks := rfl
@[simp] theorem setTaken_lines (k : TrackId) (x : Int) : (setTaken k x s).lines = s.lines := rfl
@[simp] theorem setTaken_profiles (k : TrackId) (x : Int) : (setTaken k x s).profiles = s.profiles := rfl
@[simp] theorem setTaken_inhibited (k : TrackId) (x : Int) : (setTaken k x s).inhibited = s.inhibited := rfl
@[simp] theorem setTaken_loads (k : TrackId) (x : Int) : (setTaken k x s).loads = s.loads := rfl
@[simp] theorem setTaken_sweep (k : TrackId) (x : Int) : (setTaken k x s).sweep = s.sweep := rfl
@[simp] theorem setTaken_links (k : TrackId) (x : Int) : (setTaken k x s).links = s.links := rfl
@[simp] theorem setTaken_baud (k : TrackId) (x : Int) : (setTaken k x s).baud = s.baud := rfl
@[simp] theorem setTaken_route (k : TrackId) (x : Int) : (setTaken k x s).route = s.route := rfl
@[simp] theorem setTaken_claims (k : TrackId) (x : Int) : (setTaken k x s).claims = s.claims := rfl
@[simp] theorem setTaken_queues (k : TrackId) (x : Int) : (setTaken k x s).queues = s.queues := rfl
@[simp] theorem setTaken_transit (k : TrackId) (x : Int) : (setTaken k x s).transit = s.transit := rfl
@[simp] theorem setTaken_pins (k : TrackId) (x : Int) : (setTaken k x s).pins = s.pins := rfl
@[simp] theorem setTaken_now (k : TrackId) (x : Int) : (setTaken k x s).now = s.now := rfl
@[simp] theorem setTaken_pending (k : TrackId) (x : Int) : (setTaken k x s).pending = s.pending := rfl

/-! `setStamp` -/

@[simp] theorem setStamp_tracks (n : Nat) : (setStamp n s).tracks = s.tracks := rfl
@[simp] theorem setStamp_csu (n : Nat) : (setStamp n s).csu = { s.csu with stamp := n } := rfl
@[simp] theorem setStamp_marks (n : Nat) : (setStamp n s).marks = s.marks := rfl
@[simp] theorem setStamp_lines (n : Nat) : (setStamp n s).lines = s.lines := rfl
@[simp] theorem setStamp_profiles (n : Nat) : (setStamp n s).profiles = s.profiles := rfl
@[simp] theorem setStamp_inhibited (n : Nat) : (setStamp n s).inhibited = s.inhibited := rfl
@[simp] theorem setStamp_loads (n : Nat) : (setStamp n s).loads = s.loads := rfl
@[simp] theorem setStamp_sweep (n : Nat) : (setStamp n s).sweep = s.sweep := rfl
@[simp] theorem setStamp_links (n : Nat) : (setStamp n s).links = s.links := rfl
@[simp] theorem setStamp_baud (n : Nat) : (setStamp n s).baud = s.baud := rfl
@[simp] theorem setStamp_route (n : Nat) : (setStamp n s).route = s.route := rfl
@[simp] theorem setStamp_claims (n : Nat) : (setStamp n s).claims = s.claims := rfl
@[simp] theorem setStamp_queues (n : Nat) : (setStamp n s).queues = s.queues := rfl
@[simp] theorem setStamp_transit (n : Nat) : (setStamp n s).transit = s.transit := rfl
@[simp] theorem setStamp_pins (n : Nat) : (setStamp n s).pins = s.pins := rfl
@[simp] theorem setStamp_now (n : Nat) : (setStamp n s).now = s.now := rfl
@[simp] theorem setStamp_pending (n : Nat) : (setStamp n s).pending = s.pending := rfl

/-! `setEvaluation` -/

@[simp] theorem setEvaluation_tracks (e : Option Evaluation) : (setEvaluation e s).tracks = s.tracks := rfl
@[simp] theorem setEvaluation_csu (e : Option Evaluation) : (setEvaluation e s).csu = { s.csu with evaluation := e } := rfl
@[simp] theorem setEvaluation_marks (e : Option Evaluation) : (setEvaluation e s).marks = s.marks := rfl
@[simp] theorem setEvaluation_lines (e : Option Evaluation) : (setEvaluation e s).lines = s.lines := rfl
@[simp] theorem setEvaluation_profiles (e : Option Evaluation) : (setEvaluation e s).profiles = s.profiles := rfl
@[simp] theorem setEvaluation_inhibited (e : Option Evaluation) : (setEvaluation e s).inhibited = s.inhibited := rfl
@[simp] theorem setEvaluation_loads (e : Option Evaluation) : (setEvaluation e s).loads = s.loads := rfl
@[simp] theorem setEvaluation_sweep (e : Option Evaluation) : (setEvaluation e s).sweep = s.sweep := rfl
@[simp] theorem setEvaluation_links (e : Option Evaluation) : (setEvaluation e s).links = s.links := rfl
@[simp] theorem setEvaluation_baud (e : Option Evaluation) : (setEvaluation e s).baud = s.baud := rfl
@[simp] theorem setEvaluation_route (e : Option Evaluation) : (setEvaluation e s).route = s.route := rfl
@[simp] theorem setEvaluation_claims (e : Option Evaluation) : (setEvaluation e s).claims = s.claims := rfl
@[simp] theorem setEvaluation_queues (e : Option Evaluation) : (setEvaluation e s).queues = s.queues := rfl
@[simp] theorem setEvaluation_transit (e : Option Evaluation) : (setEvaluation e s).transit = s.transit := rfl
@[simp] theorem setEvaluation_pins (e : Option Evaluation) : (setEvaluation e s).pins = s.pins := rfl
@[simp] theorem setEvaluation_now (e : Option Evaluation) : (setEvaluation e s).now = s.now := rfl
@[simp] theorem setEvaluation_pending (e : Option Evaluation) : (setEvaluation e s).pending = s.pending := rfl

/-! `setSweep` -/

@[simp] theorem setSweep_tracks (w : Sweep) : (setSweep w s).tracks = s.tracks := rfl
@[simp] theorem setSweep_csu (w : Sweep) : (setSweep w s).csu = s.csu := rfl
@[simp] theorem setSweep_marks (w : Sweep) : (setSweep w s).marks = s.marks := rfl
@[simp] theorem setSweep_lines (w : Sweep) : (setSweep w s).lines = s.lines := rfl
@[simp] theorem setSweep_profiles (w : Sweep) : (setSweep w s).profiles = s.profiles := rfl
@[simp] theorem setSweep_inhibited (w : Sweep) : (setSweep w s).inhibited = s.inhibited := rfl
@[simp] theorem setSweep_loads (w : Sweep) : (setSweep w s).loads = s.loads := rfl
@[simp] theorem setSweep_sweep (w : Sweep) : (setSweep w s).sweep = w := rfl
@[simp] theorem setSweep_links (w : Sweep) : (setSweep w s).links = s.links := rfl
@[simp] theorem setSweep_baud (w : Sweep) : (setSweep w s).baud = s.baud := rfl
@[simp] theorem setSweep_route (w : Sweep) : (setSweep w s).route = s.route := rfl
@[simp] theorem setSweep_claims (w : Sweep) : (setSweep w s).claims = s.claims := rfl
@[simp] theorem setSweep_queues (w : Sweep) : (setSweep w s).queues = s.queues := rfl
@[simp] theorem setSweep_transit (w : Sweep) : (setSweep w s).transit = s.transit := rfl
@[simp] theorem setSweep_pins (w : Sweep) : (setSweep w s).pins = s.pins := rfl
@[simp] theorem setSweep_now (w : Sweep) : (setSweep w s).now = s.now := rfl
@[simp] theorem setSweep_pending (w : Sweep) : (setSweep w s).pending = s.pending := rfl

/-! `setTransit` -/

@[simp] theorem setTransit_tracks (t : Transit) : (setTransit t s).tracks = s.tracks := rfl
@[simp] theorem setTransit_csu (t : Transit) : (setTransit t s).csu = s.csu := rfl
@[simp] theorem setTransit_marks (t : Transit) : (setTransit t s).marks = s.marks := rfl
@[simp] theorem setTransit_lines (t : Transit) : (setTransit t s).lines = s.lines := rfl
@[simp] theorem setTransit_profiles (t : Transit) : (setTransit t s).profiles = s.profiles := rfl
@[simp] theorem setTransit_inhibited (t : Transit) : (setTransit t s).inhibited = s.inhibited := rfl
@[simp] theorem setTransit_loads (t : Transit) : (setTransit t s).loads = s.loads := rfl
@[simp] theorem setTransit_sweep (t : Transit) : (setTransit t s).sweep = s.sweep := rfl
@[simp] theorem setTransit_links (t : Transit) : (setTransit t s).links = s.links := rfl
@[simp] theorem setTransit_baud (t : Transit) : (setTransit t s).baud = s.baud := rfl
@[simp] theorem setTransit_route (t : Transit) : (setTransit t s).route = s.route := rfl
@[simp] theorem setTransit_claims (t : Transit) : (setTransit t s).claims = s.claims := rfl
@[simp] theorem setTransit_queues (t : Transit) : (setTransit t s).queues = s.queues := rfl
@[simp] theorem setTransit_transit (t : Transit) : (setTransit t s).transit = t := rfl
@[simp] theorem setTransit_pins (t : Transit) : (setTransit t s).pins = s.pins := rfl
@[simp] theorem setTransit_now (t : Transit) : (setTransit t s).now = s.now := rfl
@[simp] theorem setTransit_pending (t : Transit) : (setTransit t s).pending = s.pending := rfl

/-! `raiseTo` -/

@[simp] theorem raiseTo_tracks (l : LinkId) (r : Report) : (raiseTo l r s).tracks = s.tracks := rfl
@[simp] theorem raiseTo_csu (l : LinkId) (r : Report) : (raiseTo l r s).csu = s.csu := rfl
@[simp] theorem raiseTo_marks (l : LinkId) (r : Report) : (raiseTo l r s).marks = s.marks := rfl
@[simp] theorem raiseTo_lines (l : LinkId) (r : Report) : (raiseTo l r s).lines = s.lines := rfl
@[simp] theorem raiseTo_profiles (l : LinkId) (r : Report) : (raiseTo l r s).profiles = s.profiles := rfl
@[simp] theorem raiseTo_inhibited (l : LinkId) (r : Report) : (raiseTo l r s).inhibited = s.inhibited := rfl
@[simp] theorem raiseTo_loads (l : LinkId) (r : Report) : (raiseTo l r s).loads = s.loads := rfl
@[simp] theorem raiseTo_sweep (l : LinkId) (r : Report) : (raiseTo l r s).sweep = s.sweep := rfl
@[simp] theorem raiseTo_links (l : LinkId) (r : Report) : (raiseTo l r s).links = s.links := rfl
@[simp] theorem raiseTo_baud (l : LinkId) (r : Report) : (raiseTo l r s).baud = s.baud := rfl
@[simp] theorem raiseTo_route (l : LinkId) (r : Report) : (raiseTo l r s).route = s.route := rfl
@[simp] theorem raiseTo_claims (l : LinkId) (r : Report) : (raiseTo l r s).claims = s.claims := rfl
@[simp] theorem raiseTo_queues (l : LinkId) (r : Report) : (raiseTo l r s).queues = s.queues := rfl
@[simp] theorem raiseTo_pins (l : LinkId) (r : Report) : (raiseTo l r s).pins = s.pins := rfl
@[simp] theorem raiseTo_now (l : LinkId) (r : Report) : (raiseTo l r s).now = s.now := rfl
@[simp] theorem raiseTo_pending (l : LinkId) (r : Report) : (raiseTo l r s).pending = s.pending := rfl

/-! `raiseRouted` -/

@[simp] theorem raiseRouted_tracks (dest : Option LinkId) (r : Report) : (raiseRouted dest r s).tracks = s.tracks := by cases dest <;> rfl
@[simp] theorem raiseRouted_csu (dest : Option LinkId) (r : Report) : (raiseRouted dest r s).csu = s.csu := by cases dest <;> rfl
@[simp] theorem raiseRouted_marks (dest : Option LinkId) (r : Report) : (raiseRouted dest r s).marks = s.marks := by cases dest <;> rfl
@[simp] theorem raiseRouted_lines (dest : Option LinkId) (r : Report) : (raiseRouted dest r s).lines = s.lines := by cases dest <;> rfl
@[simp] theorem raiseRouted_profiles (dest : Option LinkId) (r : Report) : (raiseRouted dest r s).profiles = s.profiles := by cases dest <;> rfl
@[simp] theorem raiseRouted_inhibited (dest : Option LinkId) (r : Report) : (raiseRouted dest r s).inhibited = s.inhibited := by cases dest <;> rfl
@[simp] theorem raiseRouted_loads (dest : Option LinkId) (r : Report) : (raiseRouted dest r s).loads = s.loads := by cases dest <;> rfl
@[simp] theorem raiseRouted_sweep (dest : Option LinkId) (r : Report) : (raiseRouted dest r s).sweep = s.sweep := by cases dest <;> rfl
@[simp] theorem raiseRouted_links (dest : Option LinkId) (r : Report) : (raiseRouted dest r s).links = s.links := by cases dest <;> rfl
@[simp] theorem raiseRouted_baud (dest : Option LinkId) (r : Report) : (raiseRouted dest r s).baud = s.baud := by cases dest <;> rfl
@[simp] theorem raiseRouted_route (dest : Option LinkId) (r : Report) : (raiseRouted dest r s).route = s.route := by cases dest <;> rfl
@[simp] theorem raiseRouted_claims (dest : Option LinkId) (r : Report) : (raiseRouted dest r s).claims = s.claims := by cases dest <;> rfl
@[simp] theorem raiseRouted_queues (dest : Option LinkId) (r : Report) : (raiseRouted dest r s).queues = s.queues := by cases dest <;> rfl
@[simp] theorem raiseRouted_pins (dest : Option LinkId) (r : Report) : (raiseRouted dest r s).pins = s.pins := by cases dest <;> rfl
@[simp] theorem raiseRouted_now (dest : Option LinkId) (r : Report) : (raiseRouted dest r s).now = s.now := by cases dest <;> rfl
@[simp] theorem raiseRouted_pending (dest : Option LinkId) (r : Report) : (raiseRouted dest r s).pending = s.pending := by cases dest <;> rfl

/-! `raiseTrack` -/

@[simp] theorem raiseTrack_tracks (k : TrackId) (r : Report) : (raiseTrack k r s).tracks = s.tracks := raiseRouted_tracks ..
@[simp] theorem raiseTrack_csu (k : TrackId) (r : Report) : (raiseTrack k r s).csu = s.csu := raiseRouted_csu ..
@[simp] theorem raiseTrack_marks (k : TrackId) (r : Report) : (raiseTrack k r s).marks = s.marks := raiseRouted_marks ..
@[simp] theorem raiseTrack_lines (k : TrackId) (r : Report) : (raiseTrack k r s).lines = s.lines := raiseRouted_lines ..
@[simp] theorem raiseTrack_profiles (k : TrackId) (r : Report) : (raiseTrack k r s).profiles = s.profiles := raiseRouted_profiles ..
@[simp] theorem raiseTrack_inhibited (k : TrackId) (r : Report) : (raiseTrack k r s).inhibited = s.inhibited := raiseRouted_inhibited ..
@[simp] theorem raiseTrack_loads (k : TrackId) (r : Report) : (raiseTrack k r s).loads = s.loads := raiseRouted_loads ..
@[simp] theorem raiseTrack_sweep (k : TrackId) (r : Report) : (raiseTrack k r s).sweep = s.sweep := raiseRouted_sweep ..
@[simp] theorem raiseTrack_links (k : TrackId) (r : Report) : (raiseTrack k r s).links = s.links := raiseRouted_links ..
@[simp] theorem raiseTrack_baud (k : TrackId) (r : Report) : (raiseTrack k r s).baud = s.baud := raiseRouted_baud ..
@[simp] theorem raiseTrack_route (k : TrackId) (r : Report) : (raiseTrack k r s).route = s.route := raiseRouted_route ..
@[simp] theorem raiseTrack_claims (k : TrackId) (r : Report) : (raiseTrack k r s).claims = s.claims := raiseRouted_claims ..
@[simp] theorem raiseTrack_queues (k : TrackId) (r : Report) : (raiseTrack k r s).queues = s.queues := raiseRouted_queues ..
@[simp] theorem raiseTrack_pins (k : TrackId) (r : Report) : (raiseTrack k r s).pins = s.pins := raiseRouted_pins ..
@[simp] theorem raiseTrack_now (k : TrackId) (r : Report) : (raiseTrack k r s).now = s.now := raiseRouted_now ..
@[simp] theorem raiseTrack_pending (k : TrackId) (r : Report) : (raiseTrack k r s).pending = s.pending := raiseRouted_pending ..

/-! `raiseLine` -/

@[simp] theorem raiseLine_tracks (n : LineId) (r : Report) : (raiseLine n r s).tracks = s.tracks := raiseRouted_tracks ..
@[simp] theorem raiseLine_csu (n : LineId) (r : Report) : (raiseLine n r s).csu = s.csu := raiseRouted_csu ..
@[simp] theorem raiseLine_marks (n : LineId) (r : Report) : (raiseLine n r s).marks = s.marks := raiseRouted_marks ..
@[simp] theorem raiseLine_lines (n : LineId) (r : Report) : (raiseLine n r s).lines = s.lines := raiseRouted_lines ..
@[simp] theorem raiseLine_profiles (n : LineId) (r : Report) : (raiseLine n r s).profiles = s.profiles := raiseRouted_profiles ..
@[simp] theorem raiseLine_inhibited (n : LineId) (r : Report) : (raiseLine n r s).inhibited = s.inhibited := raiseRouted_inhibited ..
@[simp] theorem raiseLine_loads (n : LineId) (r : Report) : (raiseLine n r s).loads = s.loads := raiseRouted_loads ..
@[simp] theorem raiseLine_sweep (n : LineId) (r : Report) : (raiseLine n r s).sweep = s.sweep := raiseRouted_sweep ..
@[simp] theorem raiseLine_links (n : LineId) (r : Report) : (raiseLine n r s).links = s.links := raiseRouted_links ..
@[simp] theorem raiseLine_baud (n : LineId) (r : Report) : (raiseLine n r s).baud = s.baud := raiseRouted_baud ..
@[simp] theorem raiseLine_route (n : LineId) (r : Report) : (raiseLine n r s).route = s.route := raiseRouted_route ..
@[simp] theorem raiseLine_claims (n : LineId) (r : Report) : (raiseLine n r s).claims = s.claims := raiseRouted_claims ..
@[simp] theorem raiseLine_queues (n : LineId) (r : Report) : (raiseLine n r s).queues = s.queues := raiseRouted_queues ..
@[simp] theorem raiseLine_pins (n : LineId) (r : Report) : (raiseLine n r s).pins = s.pins := raiseRouted_pins ..
@[simp] theorem raiseLine_now (n : LineId) (r : Report) : (raiseLine n r s).now = s.now := raiseRouted_now ..
@[simp] theorem raiseLine_pending (n : LineId) (r : Report) : (raiseLine n r s).pending = s.pending := raiseRouted_pending ..

/-! `raiseUnowned` -/

@[simp] theorem raiseUnowned_tracks (r : Report) : (raiseUnowned r s).tracks = s.tracks := raiseRouted_tracks ..
@[simp] theorem raiseUnowned_csu (r : Report) : (raiseUnowned r s).csu = s.csu := raiseRouted_csu ..
@[simp] theorem raiseUnowned_marks (r : Report) : (raiseUnowned r s).marks = s.marks := raiseRouted_marks ..
@[simp] theorem raiseUnowned_lines (r : Report) : (raiseUnowned r s).lines = s.lines := raiseRouted_lines ..
@[simp] theorem raiseUnowned_profiles (r : Report) : (raiseUnowned r s).profiles = s.profiles := raiseRouted_profiles ..
@[simp] theorem raiseUnowned_inhibited (r : Report) : (raiseUnowned r s).inhibited = s.inhibited := raiseRouted_inhibited ..
@[simp] theorem raiseUnowned_loads (r : Report) : (raiseUnowned r s).loads = s.loads := raiseRouted_loads ..
@[simp] theorem raiseUnowned_sweep (r : Report) : (raiseUnowned r s).sweep = s.sweep := raiseRouted_sweep ..
@[simp] theorem raiseUnowned_links (r : Report) : (raiseUnowned r s).links = s.links := raiseRouted_links ..
@[simp] theorem raiseUnowned_baud (r : Report) : (raiseUnowned r s).baud = s.baud := raiseRouted_baud ..
@[simp] theorem raiseUnowned_route (r : Report) : (raiseUnowned r s).route = s.route := raiseRouted_route ..
@[simp] theorem raiseUnowned_claims (r : Report) : (raiseUnowned r s).claims = s.claims := raiseRouted_claims ..
@[simp] theorem raiseUnowned_queues (r : Report) : (raiseUnowned r s).queues = s.queues := raiseRouted_queues ..
@[simp] theorem raiseUnowned_pins (r : Report) : (raiseUnowned r s).pins = s.pins := raiseRouted_pins ..
@[simp] theorem raiseUnowned_now (r : Report) : (raiseUnowned r s).now = s.now := raiseRouted_now ..
@[simp] theorem raiseUnowned_pending (r : Report) : (raiseUnowned r s).pending = s.pending := raiseRouted_pending ..

/-! `raiseUnlessLost` -/

@[simp] theorem raiseUnlessLost_tracks (l : LinkId) (r : Report) : (raiseUnlessLost l r s).tracks = s.tracks := by unfold raiseUnlessLost; split <;> rfl
@[simp] theorem raiseUnlessLost_csu (l : LinkId) (r : Report) : (raiseUnlessLost l r s).csu = s.csu := by unfold raiseUnlessLost; split <;> rfl
@[simp] theorem raiseUnlessLost_marks (l : LinkId) (r : Report) : (raiseUnlessLost l r s).marks = s.marks := by unfold raiseUnlessLost; split <;> rfl
@[simp] theorem raiseUnlessLost_lines (l : LinkId) (r : Report) : (raiseUnlessLost l r s).lines = s.lines := by unfold raiseUnlessLost; split <;> rfl
@[simp] theorem raiseUnlessLost_profiles (l : LinkId) (r : Report) : (raiseUnlessLost l r s).profiles = s.profiles := by unfold raiseUnlessLost; split <;> rfl
@[simp] theorem raiseUnlessLost_inhibited (l : LinkId) (r : Report) : (raiseUnlessLost l r s).inhibited = s.inhibited := by unfold raiseUnlessLost; split <;> rfl
@[simp] theorem raiseUnlessLost_loads (l : LinkId) (r : Report) : (raiseUnlessLost l r s).loads = s.loads := by unfold raiseUnlessLost; split <;> rfl
@[simp] theorem raiseUnlessLost_sweep (l : LinkId) (r : Report) : (raiseUnlessLost l r s).sweep = s.sweep := by unfold raiseUnlessLost; split <;> rfl
@[simp] theorem raiseUnlessLost_links (l : LinkId) (r : Report) : (raiseUnlessLost l r s).links = s.links := by unfold raiseUnlessLost; split <;> rfl
@[simp] theorem raiseUnlessLost_baud (l : LinkId) (r : Report) : (raiseUnlessLost l r s).baud = s.baud := by unfold raiseUnlessLost; split <;> rfl
@[simp] theorem raiseUnlessLost_route (l : LinkId) (r : Report) : (raiseUnlessLost l r s).route = s.route := by unfold raiseUnlessLost; split <;> rfl
@[simp] theorem raiseUnlessLost_claims (l : LinkId) (r : Report) : (raiseUnlessLost l r s).claims = s.claims := by unfold raiseUnlessLost; split <;> rfl
@[simp] theorem raiseUnlessLost_queues (l : LinkId) (r : Report) : (raiseUnlessLost l r s).queues = s.queues := by unfold raiseUnlessLost; split <;> rfl
@[simp] theorem raiseUnlessLost_pins (l : LinkId) (r : Report) : (raiseUnlessLost l r s).pins = s.pins := by unfold raiseUnlessLost; split <;> rfl
@[simp] theorem raiseUnlessLost_now (l : LinkId) (r : Report) : (raiseUnlessLost l r s).now = s.now := by unfold raiseUnlessLost; split <;> rfl
@[simp] theorem raiseUnlessLost_pending (l : LinkId) (r : Report) : (raiseUnlessLost l r s).pending = s.pending := by unfold raiseUnlessLost; split <;> rfl

/-! `raiseInhibit` -/

@[simp] theorem raiseInhibit_tracks (b : Bool) : (raiseInhibit b s).tracks = s.tracks := by simp [raiseInhibit]
@[simp] theorem raiseInhibit_csu (b : Bool) : (raiseInhibit b s).csu = s.csu := by simp [raiseInhibit]
@[simp] theorem raiseInhibit_marks (b : Bool) : (raiseInhibit b s).marks = s.marks := by simp [raiseInhibit]
@[simp] theorem raiseInhibit_lines (b : Bool) : (raiseInhibit b s).lines = s.lines := by simp [raiseInhibit]
@[simp] theorem raiseInhibit_profiles (b : Bool) : (raiseInhibit b s).profiles = s.profiles := by simp [raiseInhibit]
@[simp] theorem raiseInhibit_inhibited (b : Bool) : (raiseInhibit b s).inhibited = s.inhibited := by simp [raiseInhibit]
@[simp] theorem raiseInhibit_loads (b : Bool) : (raiseInhibit b s).loads = s.loads := by simp [raiseInhibit]
@[simp] theorem raiseInhibit_sweep (b : Bool) : (raiseInhibit b s).sweep = s.sweep := by simp [raiseInhibit]
@[simp] theorem raiseInhibit_links (b : Bool) : (raiseInhibit b s).links = s.links := by simp [raiseInhibit]
@[simp] theorem raiseInhibit_baud (b : Bool) : (raiseInhibit b s).baud = s.baud := by simp [raiseInhibit]
@[simp] theorem raiseInhibit_route (b : Bool) : (raiseInhibit b s).route = s.route := by simp [raiseInhibit]
@[simp] theorem raiseInhibit_claims (b : Bool) : (raiseInhibit b s).claims = s.claims := by simp [raiseInhibit]
@[simp] theorem raiseInhibit_queues (b : Bool) : (raiseInhibit b s).queues = s.queues := by simp [raiseInhibit]
@[simp] theorem raiseInhibit_pins (b : Bool) : (raiseInhibit b s).pins = s.pins := by simp [raiseInhibit]
@[simp] theorem raiseInhibit_now (b : Bool) : (raiseInhibit b s).now = s.now := by simp [raiseInhibit]
@[simp] theorem raiseInhibit_pending (b : Bool) : (raiseInhibit b s).pending = s.pending := by simp [raiseInhibit]

/-! The items of the two links -/

@[simp] theorem at_put_same {α : Type} (p : PerLink α) (l : LinkId) (a : α) : (p.put l a).at_ l = a := by cases l <;> rfl

@[simp] theorem at_put_other {α : Type} (p : PerLink α) (l : LinkId) (a : α) :
    (p.put l a).at_ (otherLink l) = p.at_ (otherLink l) := by cases l <;> rfl

@[simp] theorem at_other_put {α : Type} (p : PerLink α) (l : LinkId) (a : α) :
    (p.put (otherLink l) a).at_ l = p.at_ l := by cases l <;> rfl

@[simp] theorem otherLink_otherLink (l : LinkId) : otherLink (otherLink l) = l := by cases l <;> rfl

/-- Replacing one entry of a vector leaves every other entry. -/
theorem getElem_set_ne {α : Type} {n : Nat} (v : Vector α n) (i j : Fin n) (a : α) (h : i ≠ j) :
    (v.set i a)[j] = v[j] := by simp [Fin.val_ne_of_ne h]

/-- The entry that was replaced. -/
theorem getElem_set_eq {α : Type} {n : Nat} (v : Vector α n) (i : Fin n) (a : α) : (v.set i a)[i] = a := by simp

/-- An entry after one was replaced. -/
theorem getElem_set {α : Type} {n : Nat} (v : Vector α n) (i j : Fin n) (a : α) :
    (v.set i a)[j] = if i = j then a else v[j] := by
  by_cases h : i = j
  · subst h; simp
  · simp [h, Fin.val_ne_of_ne h]

/-- Raising a routed record changes the records on their way to a queue and nothing else (R171, R174). -/
theorem raiseRouted_frame (dest : Option LinkId) (r : Report) :
    ∃ q, raiseRouted dest r s = setTransit { s.transit with toQueue := q } s := by
  cases dest with
  | none => exact ⟨s.transit.toQueue, rfl⟩
  | some l => exact ⟨_, rfl⟩

/-- Raising a record about a track changes the records on their way to a queue and nothing else (R171). -/
theorem raiseTrack_frame (k : TrackId) (r : Report) :
    ∃ q, raiseTrack k r s = setTransit { s.transit with toQueue := q } s := raiseRouted_frame s _ r

/-- Raising a record about a line changes the records on their way to a queue and nothing else (R171). -/
theorem raiseLine_frame (n : LineId) (r : Report) :
    ∃ q, raiseLine n r s = setTransit { s.transit with toQueue := q } s := raiseRouted_frame s _ r

/-- A record for one link changes the records on their way to a queue and nothing else (R172). -/
theorem raiseUnlessLost_frame (l : LinkId) (r : Report) :
    ∃ q, raiseUnlessLost l r s = setTransit { s.transit with toQueue := q } s := by
  unfold raiseUnlessLost; split
  · exact ⟨s.transit.toQueue, rfl⟩
  · exact ⟨_, rfl⟩

end Sys2Proof.Machine
end

