-- ==== Sys2Proof/Laws/Cues.lean ====
section
/-! SUPPORT. What the shared operations of the Cue Schedule Unit can do: reaching, the place of a record, a resolution and its report,
the steps of a decision, the active pulse of a firing (03, 04, 06). -/

namespace Sys2Proof.Machine

variable (s : State) (k : TrackId)

theorem reaches_eq (v : Travel) (x e : Int) : reaches v x e = !ahead v e x := by
  cases v <;> simp [reaches, ahead, Travel.sign] <;> grind

theorem isAhead_eq (v : Travel) (p x : Int) : isAhead v p x = ahead v p x := by
  cases v <;> simp [isAhead, ahead, Travel.sign]

theorem overshoot_eq (v : Travel) (x e : Int) : overshoot v x e = pastBy v x e := by
  cases v <;> simp [overshoot, pastBy, Travel.sign]

/-- The overshoot of a report: no lower than 0 and within 32 bits (R74). -/
theorem reportedOvershoot_eq (o : Int) : reportedOvershoot o = min o.toNat 4294967295 := by
  simp only [reportedOvershoot, saturate]
  split
  · omega
  · split <;> omega

/-- Raising an outcome: a report when the notify level asks for it, else nothing (R74). -/
theorem raiseOutcome_eq (o : OutcomeReport) (level : Notify) : raiseOutcome level o s = told o level s := by
  cases level <;> simp [raiseOutcome, told, Notify.asks, raiseTrack]

theorem told_csu (o : OutcomeReport) (level : Notify) : (told o level s).csu = s.csu := by
  unfold told; split
  · unfold raiseRouted; split <;> rfl
  · rfl

theorem told_setEvaluation (o : OutcomeReport) (level : Notify) (e : Option Evaluation) :
    told o level (setEvaluation e s) = setEvaluation e (told o level s) := by
  unfold told; split
  · show raiseRouted (routeOwned s (trackOwner s o.track)) _ _ = _
    unfold raiseRouted; split <;> rfl
  · rfl

/-- The place a new record takes in the list order (R43). -/
theorem insertCue_place (t : Travel) (c : Cue) (cs : List Cue) :
    ∃ before after, cs = before ++ after ∧ PlaceFor t c.effective before after ∧ insertCue t c cs = before ++ c :: after := by
  induction cs with
  | nil => exact ⟨[], [], rfl, ⟨by simp, by simp⟩, rfl⟩
  | cons d ds ih =>
    obtain ⟨b, a, h1, ⟨h2, h3⟩, h4⟩ := ih
    by_cases h : isAhead t d.effective c.effective = true
    · refine ⟨[], d :: ds, rfl, ⟨by simp, fun c hc => ?_⟩, by simp [insertCue, h]⟩
      simp only [List.head?_cons, Option.some.injEq] at hc
      subst hc; rw [← isAhead_eq]; exact h
    · refine ⟨d :: b, a, by simp [h1], ⟨fun x hx => ?_, h3⟩, by simp [insertCue, h, h4]⟩
      rcases List.mem_cons.mp hx with rfl | hx
      · rwa [← isAhead_eq]
      · exact h2 x hx

theorem effectiveOf_eq (n : LineId) (p : Int) : effectiveOf s k n p = effectiveAt s k n p := by
  simp only [effectiveOf, effectiveAt]
  cases s.tracks[k].cfg.travel <;> simp [Travel.sign]; omega

theorem scheduled_get (cs : List Cue) : (scheduled k cs s).csu.schedules[k] = cs := by simp [scheduled]

theorem setEvaluation_none (h : s.csu.evaluation = none) : setEvaluation none s = s := by
  cases s with
  | mk a c => cases c; simp only at h; simp [setEvaluation, h]

/-- With no event in progress there is none to finish. -/
theorem finishEvaluation_none (h : s.csu.evaluation = none) : finishEvaluation s = s := by simp [finishEvaluation, h]

/-- The loop of an evaluation event ends at a head that lies ahead, or without a head (R62). -/
theorem resolveHeads_stop (fuel : Nat) (e : EvalInput)
    (h : ∀ c, s.csu.schedules[k].head? = some c → ahead e.travel c.effective e.pos = true) :
    resolveHeads fuel k e s = setEvaluation none s := by
  cases fuel with
  | zero => rfl
  | succ n =>
    unfold resolveHeads
    split
    · rfl
    · rename_i c r hc
      rw [hc] at h
      simp [reaches_eq, h c rfl]

/-- The resolution of a cue without repeat frees its record and reports the outcome (R70, R74). -/
theorem completeResolution_single (e : EvalInput) (c : Cue) (tail : List Cue) (r : CueResult) (h : c.repetition = none) :
    completeResolution k e c tail r s = told (outcomeAt k e c r 0 false) c.notify (scheduled k tail s) := by
  have e1 : resolutionReport k e c r (afterResolution e.travel c) = outcomeAt k e c r 0 false := by
    simp [resolutionReport, afterResolution, h, outcomeAt, AfterResolution.remaining, overshoot_eq, reportedOvershoot_eq]
  simp only [completeResolution, e1, raiseOutcome_eq]
  simp [applyResolution, afterResolution, h]; rfl

/-- The stamps of a renumbered schedule (R42). -/
theorem restamped_eq (n : Nat) (cs : List Cue) : renumberFrom n cs = restamped n cs := by
  induction cs generalizing n with
  | nil => rfl
  | cons c cs ih =>
    simp only [renumberFrom, ih, restamped, List.mapIdx_cons, Nat.add_zero]
    congr 1
    apply List.mapIdx_eq_mapIdx_iff.2
    intro i hi
    simp only [Cue.mk.injEq, true_and]; omega

/-- The renumbering of the stamps (R42). -/
theorem renumber_eq : renumber s = renumbered s := by
  simp only [renumber, renumbered, restamped_eq, cueCount, setStamp, setSchedule]
  congr 2
  apply Vector.ext; intro i hi
  simp only [Vector.getElem_set, Fin.getElem_fin]
  interval_cases i <;> simp

/-- The state an insertion finds (R42). -/
theorem readyStamp_eq : readyStamp s = stampReady s := by simp only [readyStamp, stampReady, renumber_eq]; rfl

/-- The insertion of a record: it takes the next stamp, after a renumbering at the last one, and its place (R42, R43). -/
theorem insertRecord_inserted (c : Cue) :
    ∃ before after, (stampReady s).csu.schedules[k] = before ++ after ∧
      PlaceFor s.tracks[k].cfg.travel c.effective before after ∧
      insertRecord k c s = inserted (stampReady s) k before c after := by
  have ht : (stampReady s).tracks = s.tracks := by unfold stampReady; split <;> rfl
  obtain ⟨before, after, h1, h2, h3⟩ := insertCue_place s.tracks[k].cfg.travel
    { c with stamp := (stampReady s).csu.stamp } (stampReady s).csu.schedules[k]
  refine ⟨before, after, h1, h2, ?_⟩
  simp only [insertRecord, readyStamp_eq, ht, h3]
  rfl

/-- The resolution of a reached cue does what R70 and R74 say and nothing else. -/
theorem completeResolution_resolved (e : EvalInput) (c : Cue) (tail : List Cue) (r : CueResult)
    (h : e.travel = s.tracks[k].cfg.travel) : Resolved k e c tail r s (completeResolution k e c tail r s) := by
  have hrep : ∀ a, resolutionReport k e c r a = outcomeAt k e c r a.remaining (a matches .rangeEnd _) := by
    intro a; cases a <;> simp [resolutionReport, outcomeAt, overshoot_eq, reportedOvershoot_eq]
  unfold Resolved
  cases hc : c.repetition with
  | none => exact completeResolution_single s k e c tail r hc
  | some p =>
    obtain ⟨pitch, m⟩ := p
    have hsign : ∀ x : Int, x + e.travel.sign * pitch = x + if e.travel = .forward then (pitch : Int) else -pitch := by
      intro x; cases e.travel <;> simp [Travel.sign]
    simp only [completeResolution, raiseOutcome_eq, hrep]
    by_cases hm : m = 0
    · simp [afterResolution, hc, hm, AfterResolution.remaining, applyResolution]; rfl
    · simp only [hm, if_false]
      by_cases hf : inRange (c.nominal + if e.travel = .forward then (pitch : Int) else -pitch) = true ∧
          inRange (c.effective + if e.travel = .forward then (pitch : Int) else -pitch) = true
      · have ha : afterResolution e.travel c = .reinserted (advanceCue e.travel c ⟨pitch, m⟩) (m - 1) := by
          simp [afterResolution, hc, hm, advanceCue, hsign, hf]
        obtain ⟨before, after, h1, h2, h3⟩ := insertRecord_inserted (setSchedule k tail s) k (advanceCue e.travel c ⟨pitch, m⟩)
        simp only [hf, and_self, if_true, ha, applyResolution, AfterResolution.remaining]
        refine ⟨before, after, h1, ?_, ?_⟩
        · have : (advanceCue e.travel c ⟨pitch, m⟩).effective = c.effective + e.travel.sign * pitch := rfl
          rw [this, hsign] at h2
          rw [h]
          rw [h] at h2
          exact h2
        · rw [h3]
          simp only [advanceCue, hsign]; rfl
      · have ha : afterResolution e.travel c = .rangeEnd m := by
          simp only [afterResolution, hc, hm, if_false, advanceCue, hsign, Bool.and_eq_true, hf]
        simp only [hf, if_false, ha, applyResolution, AfterResolution.remaining]; rfl
/-- The decision on a reached head, in the order of Table 4-2 (R64 to R67). -/
theorem scheduleDecision_eq (e : EvalInput) (c : Cue) : scheduleDecision s e c = decided s e c := by
  have hp : (profileUsed s c).1 = c.profile.getD s.lines[c.line].cfg.profile := by
    unfold profileUsed; cases c.profile <;> rfl
  have ht : exceedsTolerance e c =
      c.tolerance.any (fun t : Nat => decide ((t : Int) < pastBy e.travel e.pos c.effective)) := by
    simp only [exceedsTolerance, overshoot_eq]; cases c.tolerance <;> simp
  have hs : ∀ p : Profile, tooSlow e p =
      decide (p.minSpeed ≠ 0 ∧ (if e.travel = .forward then e.vel else -e.vel) < p.minSpeed) := by
    intro p; simp only [tooSlow]; cases e.travel <;> simp [Travel.sign, Nat.pos_iff_ne_zero]
  unfold scheduleDecision decided
  simp only [hp, ht, hs, decide_eq_true_eq]

/-- The end position of a DISTANCE pulse, held to the range (R106). -/
theorem distanceEnd_eq (t : Travel) (x : Int) (w : Nat) (h : inRange x = true) :
    distanceEnd t x w =
      max (-140737488355328) (min 140737488355327 (if t = .forward then x + w else x - w)) := by
  have h := of_decide_eq_true h
  simp only [Config.maxPos, Config.minPos] at h
  simp only [distanceEnd, inRange, Config.maxPos, Config.minPos, limitAhead]
  cases t <;> simp [Travel.sign] <;> split <;> omega

end Sys2Proof.Machine
end

