-- ==== Sys2Proof/Laws/Links.lean ====
section
/-! SUPPORT. What the link interface does with a command: the choice of outbound frames, the arrival of a frame and its
execution (08, 10). -/

namespace Sys2Proof.Machine

variable (s : State) (l m : LinkId)

/-! ### Reading the two links -/

@[simp] theorem linkOn_setLink_same (u : Link) : linkOn (setLink l u s) l = u := by simp [linkOn]

@[simp] theorem linkOn_setLink_other (u : Link) : linkOn (setLink l u s) (otherLink l) = linkOn s (otherLink l) := by
  simp [linkOn]

@[simp] theorem linkOn_setQueue (q : Queue) : linkOn (setQueue l q s) m = linkOn s m := rfl

@[simp] theorem queueOn_setQueue_same (q : Queue) : queueOn (setQueue l q s) l = q := by simp [queueOn]

@[simp] theorem queueOn_setQueue_other (q : Queue) : queueOn (setQueue l q s) (otherLink l) = queueOn s (otherLink l) := by
  simp [queueOn]

@[simp] theorem queueOn_setLink (u : Link) : queueOn (setLink l u s) m = queueOn s m := rfl

theorem isLost_eq : isLost s l = ((linkOn s l).state == .lost) := rfl

@[simp] theorem device_setLink (u : Link) : (setLink l u s).device = s.device := rfl

@[simp] theorem device_setQueue (q : Queue) : (setQueue l q s).device = s.device := rfl

/-- Two links: a fact about a link and about the other one is a fact about both. -/
theorem both_links {P : LinkId → Prop} (h : P l) (h' : P (otherLink l)) : ∀ m, P m := by
  intro m; cases l <;> cases m <;> assumption

theorem eq_or_other : m = l ∨ m = otherLink l := by cases l <;> cases m <;> simp [otherLink]

/-! ### Choosing an outbound frame (R148, R175) -/

theorem restand_apart (p : Record → Bool) (st : Standing) (rs : List Record) :
    (restand p st rs).map (fun r => ({ r with standing := .waiting } : Record)) =
      rs.map fun r => { r with standing := .waiting } := by
  induction rs with
  | nil => rfl
  | cons r rs ih => unfold restand; split <;> simp [ih]

/-- What a queue offers leaves it as it was apart from the standing of its records (R175). -/
theorem offer_apart {q q' : Queue} {r : Record} (h : q.offer = some (r, q')) : q'.apart = q.apart := by
  unfold Queue.offer at h
  split at h
  · cases h; simp [Queue.apart, restand_apart]
  · split at h
    · simp only [Option.map_eq_some_iff] at h
      obtain ⟨a, -, h⟩ := h
      cases h; simp [Queue.apart, restand_apart]
    · cases h

/-- Choosing an outbound frame changes the outbound frame, the pending reply and the standing of records, and nothing
else (R148, R175). -/
theorem pump_frame :
    ∃ L Q, pump l s = setQueue l Q (setLink l L s) ∧ L.apart = (linkOn s l).apart ∧ Q.apart = (queueOn s l).apart := by
  have hs : s = setQueue l (queueOn s l) (setLink l (linkOn s l) s) := by
    cases s; cases l <;> rfl
  have hq : ∀ L, setLink l L s = setQueue l (queueOn s l) (setLink l L s) := by
    intro L; cases s; cases l <;> rfl
  unfold pump
  dsimp only
  split
  · exact ⟨_, _, hs, rfl, rfl⟩
  · split
    · exact ⟨_, _, hq _, rfl, rfl⟩
    · split
      · exact ⟨_, _, hs, rfl, rfl⟩
      · unfold chooseReport
        split
        · rename_i r q h
          exact ⟨_, _, rfl, rfl, offer_apart h⟩
        · exact ⟨_, _, hs, rfl, rfl⟩

@[simp] theorem pump_device : (pump l s).device = s.device := by
  obtain ⟨L, Q, h, -, -⟩ := pump_frame s l
  rw [h]; rfl

theorem pump_link : (linkOn (pump l s) m).apart = (linkOn s m).apart := by
  obtain ⟨L, Q, h, hL, -⟩ := pump_frame s l
  rw [h]
  rcases eq_or_other l m with rfl | rfl <;> simp [hL]

theorem pump_queue : (queueOn (pump l s) m).apart = (queueOn s m).apart := by
  obtain ⟨L, Q, h, -, hQ⟩ := pump_frame s l
  rw [h]
  rcases eq_or_other l m with rfl | rfl <;> simp [hQ]

@[simp] theorem kick_device : (kick s).device = s.device := by simp [kick]

@[simp] theorem kick_link : (linkOn (kick s) m).apart = (linkOn s m).apart := by simp [kick, pump_link]

@[simp] theorem kick_queue : (queueOn (kick s) m).apart = (queueOn s m).apart := by simp [kick, pump_queue]

/-- A pending reply stays pending until it is chosen for sending (R148). -/
theorem pump_waits {f : List Byte} (hf : (linkOn s m).storedReply = some f)
    (h : (linkOn s m).replyPending = true ∨ ∃ o, (linkOn s m).outbound = some o ∧ o.kind = .reply ∧ o.bytes = f) :
    (linkOn (pump l s) m).replyPending = true ∨
      ∃ o, (linkOn (pump l s) m).outbound = some o ∧ o.kind = .reply ∧ o.bytes = f := by
  rcases eq_or_other l m with rfl | rfl
  · rcases h with h | ⟨o, ho, hk, hb⟩
    · unfold pump
      dsimp only
      split
      · exact .inl h
      · exact .inr ⟨⟨.reply, (linkOn s m).storedReply.getD [], 0⟩, by simp, rfl, by simp [hf]⟩
    · have e : pump m s = s := by simp [pump, ho]
      rw [e]; exact .inr ⟨o, ho, hk, hb⟩
  · obtain ⟨L, Q, e, -, -⟩ := pump_frame s l
    rw [e]; simpa using h

/-- The record at the first place that `p` accepts takes the new standing. -/
theorem restand_split {p : Record → Bool} {before after : List Record} {r : Record} (st : Standing)
    (hb : ∀ x ∈ before, p x = false) (hr : p r = true) :
    restand p st (before ++ r :: after) = before ++ { r with standing := st } :: after := by
  induction before with
  | nil => simp [restand, hr]
  | cons b before ih =>
    simp only [List.mem_cons, forall_eq_or_imp] at hb
    simp [restand, hb.1, ih hb.2]

theorem find_split {p : Record → Bool} {before after : List Record} {r : Record} (hb : ∀ x ∈ before, p x = false)
    (hr : p r = true) : (before ++ r :: after).find? p = some r := by
  rw [List.find?_append, List.find?_eq_none.2 (by simpa using hb)]
  simp [hr]

theorem isDue_iff (r : Record) : r.standing.isDue = true ↔ r.standing = .inFlight true := by
  cases r.standing with
  | inFlight due => cases due <;> simp [Standing.isDue]
  | waiting => simp [Standing.isDue]
  | sending => simp [Standing.isDue]

theorem isDue_false {r : Record} (h : r.standing ≠ .inFlight true) : r.standing.isDue = false := by
  rw [← Bool.not_eq_true, isDue_iff]; exact h

/-- A queue that offers nothing (R175). -/
theorem offer_nothing {q : Queue} (h : offersNothing q) : q.offer = none := by
  have hd : q.records.find? (fun r => r.standing.isDue) = none :=
    List.find?_eq_none.2 fun x hx => by simpa using isDue_false (h.1 x hx)
  unfold Queue.offer
  rw [hd]
  rcases h.2 with hw | hw
  · have : ¬ q.inFlight < Config.windowSize := by simp only [Config.windowSize]; omega
    simp [this]
  · have : q.records.find? (fun r => r.standing == .waiting) = none :=
      List.find?_eq_none.2 fun x hx => by simpa using hw x hx
    simp [this]

/-- The choice of the next outbound frame is the one that R148 and R175 give. -/
theorem pump_begun : Begun l s (pump l s) := by
  have hw : baudHolds s l = true ↔ rateWaits l s := by simp [baudHolds, rateWaits, and_assoc]
  have hn : ¬rateWaits l s → baudHolds s l = false := fun h => by rw [← Bool.not_eq_true, hw]; exact h
  refine ⟨?_, ?_, ?_, ?_⟩
  · rintro (h | h | ⟨h, h'⟩)
    · obtain ⟨o, ho⟩ := Option.ne_none_iff_exists'.1 h
      simp [pump, ho]
    · simp [pump, hw.2 h]
    · rcases h' with h' | h'
      · simp [pump, h, h']
      · simp [pump, chooseReport, h, offer_nothing h']
  · intro f ho hb hp hf
    simp [pump, ho, hn hb, hp, hf]
  · rintro before r after ⟨ho, hb, hp, hh⟩ hq hr hbefore
    have e := find_split (p := fun r => r.standing.isDue) (after := after)
      (fun x hx => isDue_false (hbefore x hx)) ((isDue_iff r).2 hr)
    have e' := restand_split (p := fun r => r.standing.isDue) (after := after) (.inFlight false)
      (fun x hx => isDue_false (hbefore x hx)) ((isDue_iff r).2 hr)
    simp [pump, ho, hn hb, hp, hh, chooseReport, Queue.offer, hq, e, e', reportOut]
  · rintro before r after ⟨ho, hb, hp, hh⟩ hd hf hq hr hbefore
    have e0 : (queueOn s l).records.find? (fun r => r.standing.isDue) = none :=
      List.find?_eq_none.2 fun x hx => by simpa using isDue_false (hd x hx)
    have e1 : (queueOn s l).inFlight < Config.windowSize := hf
    have e := find_split (p := fun r => r.standing == .waiting) (after := after)
      (fun x hx => by simpa using hbefore x hx) (by simpa using hr)
    have e' := restand_split (p := fun r => r.standing == .waiting) (after := after) .sending
      (fun x hx => by simpa using hbefore x hx) (by simpa using hr)
    rw [hq] at e0
    simp [pump, ho, hn hb, hp, hh, chooseReport, Queue.offer, hq, e0, e1, e, e', reportOut]

/-- The choice of LINK0 that begins and ends every row of the links (R148). -/
theorem kick_begun : Begun .link0 s (kick s) := pump_begun s .link0

/-! ### The fields that transport leaves -/

/-- Two states that agree outside the links and queues agree in each field there. -/
theorem device_fields {s t : State} (h : t.device = s.device) :
    t.tracks = s.tracks ∧ t.csu = s.csu ∧ t.marks = s.marks ∧ t.lines = s.lines ∧ t.profiles = s.profiles ∧
      t.inhibited = s.inhibited ∧ t.loads = s.loads ∧ t.sweep = s.sweep ∧ t.baud = s.baud ∧ t.route = s.route ∧
      t.claims = s.claims ∧ t.transit = s.transit ∧ t.pins = s.pins ∧ t.now = s.now ∧ t.pending = s.pending := by
  simp only [State.device, State.mk.injEq] at h
  tauto

/-- The fields of a link interface apart from what sending changes. -/
theorem apart_fields {u v : Link} (h : u.apart = v.apart) :
    u.state = v.state ∧ u.receiver = v.receiver ∧ u.inbound = v.inbound ∧ u.current = v.current ∧
      u.lastSeq = v.lastSeq ∧ u.storedReply = v.storedReply ∧ u.badFrames = v.badFrames ∧ u.truncated = v.truncated ∧
      u.discarded = v.discarded ∧ u.duplicates = v.duplicates ∧ u.timeout = v.timeout ∧ u.resend = v.resend ∧
      u.supervision = v.supervision ∧ u.holdReports = v.holdReports ∧ u.resetWait = v.resetWait ∧
      u.syncOut = v.syncOut := by
  simp only [Link.apart, Link.mk.injEq] at h
  tauto

/-! ### A command that arrives on a ready link -/

/-- The state in which a command that arrives on a ready link is executed (R144, R146). -/
def arrive (l : LinkId) (seq : Byte) (payload : List Byte) (s : State) : State := acceptFrame l seq payload (kick s)

@[simp] theorem acceptFrame_device (seq : Byte) (payload : List Byte) :
    (acceptFrame l seq payload s).device = s.device := rfl

@[simp] theorem arrive_device (seq : Byte) (payload : List Byte) : (arrive l seq payload s).device = s.device := by
  simp [arrive]

/-! What the frame of a command leaves on its arrival -/

@[simp] theorem arrive_tracks (seq : Byte) (payload : List Byte) : (arrive l seq payload s).tracks = s.tracks :=
  (device_fields (arrive_device s l seq payload)).1
@[simp] theorem arrive_csu (seq : Byte) (payload : List Byte) : (arrive l seq payload s).csu = s.csu :=
  (device_fields (arrive_device s l seq payload)).2.1
@[simp] theorem arrive_marks (seq : Byte) (payload : List Byte) : (arrive l seq payload s).marks = s.marks :=
  (device_fields (arrive_device s l seq payload)).2.2.1
@[simp] theorem arrive_lines (seq : Byte) (payload : List Byte) : (arrive l seq payload s).lines = s.lines :=
  (device_fields (arrive_device s l seq payload)).2.2.2.1
@[simp] theorem arrive_profiles (seq : Byte) (payload : List Byte) : (arrive l seq payload s).profiles = s.profiles :=
  (device_fields (arrive_device s l seq payload)).2.2.2.2.1
@[simp] theorem arrive_inhibited (seq : Byte) (payload : List Byte) : (arrive l seq payload s).inhibited = s.inhibited :=
  (device_fields (arrive_device s l seq payload)).2.2.2.2.2.1
@[simp] theorem arrive_loads (seq : Byte) (payload : List Byte) : (arrive l seq payload s).loads = s.loads :=
  (device_fields (arrive_device s l seq payload)).2.2.2.2.2.2.1
@[simp] theorem arrive_sweep (seq : Byte) (payload : List Byte) : (arrive l seq payload s).sweep = s.sweep :=
  (device_fields (arrive_device s l seq payload)).2.2.2.2.2.2.2.1
@[simp] theorem arrive_baud (seq : Byte) (payload : List Byte) : (arrive l seq payload s).baud = s.baud :=
  (device_fields (arrive_device s l seq payload)).2.2.2.2.2.2.2.2.1
@[simp] theorem arrive_route (seq : Byte) (payload : List Byte) : (arrive l seq payload s).route = s.route :=
  (device_fields (arrive_device s l seq payload)).2.2.2.2.2.2.2.2.2.1
@[simp] theorem arrive_claims (seq : Byte) (payload : List Byte) : (arrive l seq payload s).claims = s.claims :=
  (device_fields (arrive_device s l seq payload)).2.2.2.2.2.2.2.2.2.2.1
@[simp] theorem arrive_transit (seq : Byte) (payload : List Byte) : (arrive l seq payload s).transit = s.transit :=
  (device_fields (arrive_device s l seq payload)).2.2.2.2.2.2.2.2.2.2.2.1
@[simp] theorem arrive_pins (seq : Byte) (payload : List Byte) : (arrive l seq payload s).pins = s.pins :=
  (device_fields (arrive_device s l seq payload)).2.2.2.2.2.2.2.2.2.2.2.2.1
@[simp] theorem arrive_now (seq : Byte) (payload : List Byte) : (arrive l seq payload s).now = s.now :=
  (device_fields (arrive_device s l seq payload)).2.2.2.2.2.2.2.2.2.2.2.2.2.1
@[simp] theorem arrive_pending (seq : Byte) (payload : List Byte) : (arrive l seq payload s).pending = s.pending :=
  (device_fields (arrive_device s l seq payload)).2.2.2.2.2.2.2.2.2.2.2.2.2.2

theorem isLost_kick : isLost (kick s) m = isLost s m := by
  rw [isLost_eq, isLost_eq, (apart_fields (kick_link s m)).1]

/-- The link interface that has just taken the frame of a command as its current command (R144, R146). -/
theorem arrive_link {seq : Byte} {payload : List Byte} (h : Ready l seq s) :
    linkOn (arrive l seq payload s) l = { linkOn (kick s) l with
      state := .up, supervision := restarted s (linkOn s l)
      current := some ⟨⟨seq, payload, isLost s l⟩, false, false⟩
      holdReports := (linkOn s l).holdReports || isLost s l } := by
  obtain ⟨-, -, hi, hc, -, -, -, -, -, -, ht, -, -, hh, -⟩ := apart_fields (kick_link s l)
  obtain ⟨h1, h2, -⟩ := h
  have hn : (kick s).now = s.now := (device_fields (kick_device s)).2.2.2.2.2.2.2.2.2.2.2.2.2.1
  rw [h1] at hc
  rw [h2] at hi
  simp [arrive, acceptFrame, validNotice, bufferFrame, hi, hc, promoteLink, Config.inboundSize, isLost_kick, restarted,
    afterMs, ht, hh, hn]

theorem arrive_other {seq : Byte} {payload : List Byte} :
    linkOn (arrive l seq payload s) (otherLink l) = linkOn (kick s) (otherLink l) := by
  simp [arrive, acceptFrame, validNotice]

theorem arrive_queue {seq : Byte} {payload : List Byte} :
    queueOn (arrive l seq payload s) l =
      if isLost s l then (queueOn (kick s) l).resume else queueOn (kick s) l := by
  have e : ((linkOn (kick s) l).state = .lost) ↔ isLost s l = true := by
    rw [← isLost_kick, isLost_eq]; simp
  simp [arrive, acceptFrame, validNotice, e]

theorem arrive_otherQueue {seq : Byte} {payload : List Byte} :
    queueOn (arrive l seq payload s) (otherLink l) = queueOn (kick s) (otherLink l) := by
  simp [arrive, acceptFrame, validNotice]

/-- A command on a ready link is executed at once, on the state in which its frame has just arrived (R146, log 1). -/
theorem hostCommand_ready (run : LinkId → List Byte → State → Answer) {seq : Byte} {payload : List Byte}
    (h : Ready l seq s) (h1 : payload ≠ []) (h2 : payload.length ≤ Config.maxPayload) :
    hostCommand run l seq payload s =
      kick (reply l seq payload (run l payload (arrive l seq payload s))) := by
  have hc : (linkOn (kick s) l).current = none := by
    rw [(apart_fields (kick_link s l)).2.2.2.1]; exact h.1
  have hp : present l seq payload (kick s) = arrive l seq payload s := by
    have h3 : payload.isEmpty = false := by simpa using h1
    have h4 : ¬ Config.maxPayload < payload.length := by omega
    simp [present, isWaiting, hc, h3, h4, arrive]
  have hl : (linkOn (kick s) l).lastSeq = (linkOn s l).lastSeq := (apart_fields (kick_link s l)).2.2.2.2.1
  have h3 := h.2.2
  simp only [hostCommand, hp]
  simp [isWaiting, isDuplicate, isOrphan, execute, arrive_link s l h, hl, h3]

/-- What an executed command that leaves the links and queues alone makes of a ready link: its reply, and outside the
links and queues the state it left (R146). -/
theorem hostCommand_replied (run : LinkId → List Byte → State → Answer) {seq : Byte} {payload : List Byte}
    (h : Ready l seq s) (h1 : payload ≠ []) (h2 : payload.length ≤ Config.maxPayload) {status : Status}
    {results : List Byte} {u : State} (ha : run l payload (arrive l seq payload s) = ⟨status, results, u⟩)
    (hl : u.links = (arrive l seq payload s).links) (hq : u.queues = (arrive l seq payload s).queues) :
    Replied l seq payload status results s (hostCommand run l seq payload s) ∧
      (hostCommand run l seq payload s).device = u.device := by
  have el : ∀ m, linkOn u m = linkOn (arrive l seq payload s) m := fun m => by simp [linkOn, hl]
  have eq : ∀ m, queueOn u m = queueOn (arrive l seq payload s) m := fun m => by simp [queueOn, hq]
  have hi : isOrphan l u = false := by simp [isOrphan, el, arrive_link s l h]
  have hk := kick_link s l
  rw [hostCommand_ready s l run h h1 h2, ha]
  refine ⟨⟨?_, ?_, ?_, ?_, ?_⟩, ?_⟩
  · simp only [kick_link, reply, hi, el, arrive_link s l h]
    simp only [Link.apart, Link.answered, Link.mk.injEq] at hk ⊢
    simp [hk, answeredLink, Link.apart, replyFrame, replyTo]
  · unfold kick
    have : replyFrame seq payload ⟨status, results, u⟩ = replyTo seq payload status results := rfl
    have e0 : ∀ v : State, v = reply l seq payload ⟨status, results, u⟩ →
        (linkOn v l).storedReply = some (replyTo seq payload status results) ∧ (linkOn v l).replyPending = true := by
      rintro v rfl; simp [reply, hi, Link.answered, this]
    obtain ⟨e1, e2⟩ := e0 _ rfl
    exact pump_waits _ _ _ e1 (.inl e2)
  · simp [reply, hi, el, arrive_other]
  · simp only [kick_queue, reply, hi]
    simp only [Bool.false_eq_true, if_false, queueOn_setLink, eq, arrive_queue]
    split
    · have := kick_queue s l
      simp only [Queue.apart, Queue.mk.injEq] at this
      simp [Queue.apart, Queue.resume, Queue.append, this]
    · exact kick_queue s l
  · simp [reply, hi, eq, arrive_otherQueue]
  · simp [reply, hi]

/-- A host command on a ready link completes with the answer its run gives on the state in which its frame arrives, when
the run leaves the links and queues alone (R146, R186). -/
theorem answered_of_run (run : LinkId → List Byte → State → Answer) {i : Instr} {seq : Byte} {payload : List Byte}
    (he : exec i s = .next (hostCommand run l seq payload s)) (h : Ready l seq s) (h1 : payload ≠ [])
    (h2 : payload.length ≤ Config.maxPayload) {status : Status} {results : List Byte} {u v : State}
    (ha : run l payload (arrive l seq payload s) = ⟨status, results, v⟩)
    (hl : v.links = (arrive l seq payload s).links) (hq : v.queues = (arrive l seq payload s).queues)
    (hd : v.device = u.device) : Answered i l seq payload status results s u := by
  obtain ⟨hr, hv⟩ := hostCommand_replied s l run h h1 h2 ha hl hq
  exact ⟨_, he, hr, hv.trans hd⟩

/-- `s` with other link interfaces and report queues. -/
def withLinks (L : PerLink Link) (Q : PerLink Queue) (s : State) : State := { s with links := L, queues := Q }

@[simp] theorem withLinks_tracks (L Q) : (withLinks L Q s).tracks = s.tracks := rfl
@[simp] theorem withLinks_csu (L Q) : (withLinks L Q s).csu = s.csu := rfl
@[simp] theorem withLinks_marks (L Q) : (withLinks L Q s).marks = s.marks := rfl
@[simp] theorem withLinks_lines (L Q) : (withLinks L Q s).lines = s.lines := rfl
@[simp] theorem withLinks_profiles (L Q) : (withLinks L Q s).profiles = s.profiles := rfl
@[simp] theorem withLinks_inhibited (L Q) : (withLinks L Q s).inhibited = s.inhibited := rfl
@[simp] theorem withLinks_loads (L Q) : (withLinks L Q s).loads = s.loads := rfl
@[simp] theorem withLinks_sweep (L Q) : (withLinks L Q s).sweep = s.sweep := rfl
@[simp] theorem withLinks_baud (L Q) : (withLinks L Q s).baud = s.baud := rfl
@[simp] theorem withLinks_route (L Q) : (withLinks L Q s).route = s.route := rfl
@[simp] theorem withLinks_claims (L Q) : (withLinks L Q s).claims = s.claims := rfl
@[simp] theorem withLinks_transit (L Q) : (withLinks L Q s).transit = s.transit := rfl
@[simp] theorem withLinks_pins (L Q) : (withLinks L Q s).pins = s.pins := rfl
@[simp] theorem withLinks_now (L Q) : (withLinks L Q s).now = s.now := rfl
@[simp] theorem withLinks_trackOwner (L Q k) : trackOwner (withLinks L Q s) k = trackOwner s k := rfl
@[simp] theorem withLinks_lineOwner (L Q n) : lineOwner (withLinks L Q s) n = lineOwner s n := rfl
@[simp] theorem withLinks_cueCount (L Q k) : cueCount (withLinks L Q s) k = cueCount s k := rfl
@[simp] theorem withLinks_freeCount (L Q) : freeCount (withLinks L Q s) = freeCount s := rfl
@[simp] theorem withLinks_pendingCount (L Q n) : pendingCount (withLinks L Q s) n = pendingCount s n := rfl

/-- The ownership check fails exactly for a resource of the other link (R161). -/
theorem heldByOther_eq (o : Option LinkId) : heldByOther l o = decide (o = some (otherLink l)) := by
  cases o <;> simp [heldByOther, beq_eq_decide]

/-- What differs from a state in its links and queues alone. -/
theorem eq_withLinks {s t : State} (h : t.device = s.device) : t = withLinks t.links t.queues s := by
  obtain ⟨h1, h2, h3, h4, h5, h6, h7, h8, h9, h10, h11, h12, h13, h14, h15⟩ := device_fields h
  cases t; cases s; simp_all [withLinks]

/-- The frame of a command leaves its link UP and the other link's state as it was (R144, R163). -/
theorem arrive_states {seq : Byte} {payload : List Byte} (h : Ready l seq s) :
    ((arrive l seq payload s).links.at_ l).state = .up ∧
      ((arrive l seq payload s).links.at_ (otherLink l)).state = (linkOn s (otherLink l)).state := by
  refine ⟨congrArg Link.state (arrive_link s l h), ?_⟩
  exact (congrArg Link.state (arrive_other s l)).trans (apart_fields (kick_link s (otherLink l))).1

/-- A host command on a ready link completes with the answer its run gives, when with its link UP the run leaves the links and
queues alone and makes `u` of everything else (R146, R186). -/
theorem answered_of_effect (run : LinkId → List Byte → State → Answer) {i : Instr} {seq : Byte} {payload : List Byte}
    (he : exec i s = .next (hostCommand run l seq payload s)) (h : Ready l seq s) (h1 : payload ≠ [])
    (h2 : payload.length ≤ Config.maxPayload) {status : Status} {results : List Byte} {u : State}
    (ha : ∀ L Q, (L.at_ l).state = .up → (L.at_ (otherLink l)).state = (linkOn s (otherLink l)).state →
      run l payload (withLinks L Q s) = ⟨status, results, withLinks L Q u⟩) :
    Answered i l seq payload status results s u := by
  obtain ⟨e1, e2⟩ := arrive_states s l (payload := payload) h
  have e := eq_withLinks (arrive_device s l seq payload)
  have := ha _ (arrive l seq payload s).queues e1 e2
  rw [← e] at this
  exact answered_of_run s l run he h h1 h2 this rfl rfl rfl

end Sys2Proof.Machine
end

