-- ==== Sys2Proof/Laws/Frames.lean ====
section
/-! SUPPORT. What the receiver of a link does with received bytes: the frames it finds among them, and those it discards (R143, R144,
R145). -/

namespace Sys2Proof.Machine

variable (l : LinkId)

/-! ### States that differ by the choice of a frame -/

theorem Settled.refl (s : State) : Settled s s := ⟨fun _ => rfl, fun _ => rfl, rfl⟩

theorem Settled.trans {s t u : State} (h : Settled s t) (h' : Settled t u) : Settled s u :=
  ⟨fun l => (h'.links l).trans (h.links l), fun l => (h'.queues l).trans (h.queues l), h'.device.trans h.device⟩

/-- The choice of a frame by LINK0 is no other change (R148). -/
theorem kick_settled (s : State) : Settled s (kick s) := ⟨kick_link s, kick_queue s, kick_device s⟩

theorem settled_setLink {s t : State} {u v : Link} (h : Settled s t) (huv : v.apart = u.apart) :
    Settled (setLink l u s) (setLink l v t) := by
  refine ⟨both_links l ?_ ?_, h.queues, h.device⟩
  · simpa using huv
  · simpa using h.links (otherLink l)

theorem settled_setQueue {s t : State} {p q : Queue} (h : Settled s t) (hpq : q.apart = p.apart) :
    Settled (setQueue l p s) (setQueue l q t) := by
  refine ⟨h.links, both_links l ?_ ?_, h.device⟩
  · simpa using hpq
  · simpa using h.queues (otherLink l)

/-- An update of a link interface that does not touch what sending changes. -/
theorem settled_update {s t : State} (f : Link → Link) (h : Settled s t) (hf : ∀ u : Link, (f u).apart = (f u.apart).apart) :
    Settled (setLink l (f (linkOn s l)) s) (setLink l (f (linkOn t l)) t) :=
  settled_setLink l h (by rw [hf, h.links, ← hf])

theorem Settled.isLost {s t : State} (h : Settled s t) : isLost t l = isLost s l := by
  rw [isLost_eq, isLost_eq, (apart_fields (h.links l)).1]

/-! ### A valid frame (R144) -/

theorem resume_apart {p q : Queue} (h : q.apart = p.apart) : q.resume.apart = p.resume.apart := by
  simp only [Queue.apart, Queue.mk.injEq] at h
  simp [Queue.apart, Queue.resume, Queue.append, h]

/-- The valid-frame notice, and a link interface put with it (R163, R164, R168). -/
theorem validNotice_noticed (u : Link) (s : State) :
    setLink l { u with state := (linkOn (validNotice l s) l).state, supervision := (linkOn (validNotice l s) l).supervision }
      (validNotice l s) = noticed l u s := by
  have e : ((linkOn s l).state = .lost) ↔ isLost s l = true := by rw [isLost_eq]; simp
  have h1 : (linkOn (validNotice l s) l).state = .up := by simp [validNotice]
  have h2 : (linkOn (validNotice l s) l).supervision = restarted s (linkOn s l) := by simp [validNotice, restarted]
  rw [h1, h2]
  simp only [validNotice, noticed, e]
  cases l <;> rfl

theorem noticed_settled {s t : State} {u v : Link} (h : Settled s t) (huv : v.apart = u.apart) :
    Settled (noticed l u s) (noticed l v t) := by
  have hn : t.now = s.now := (device_fields h.device).2.2.2.2.2.2.2.2.2.2.2.2.2.1
  have hr : restarted t (linkOn t l) = restarted s (linkOn s l) := by
    simp only [restarted, afterMs, hn, (apart_fields (h.links l)).2.2.2.2.2.2.2.2.2.2.1]
  unfold noticed
  refine settled_setQueue l (settled_setLink l h ?_) ?_
  · simp only [Link.apart, Link.mk.injEq] at huv ⊢
    simp [huv, hr]
  · rw [h.isLost]
    split
    · exact resume_apart (h.queues l)
    · exact h.queues l

/-- A frame is buffered behind those waiting, whatever the state of its link (R144). -/
theorem bufferFrame_buffered (u : Link) (f : Frame) (state : LinkState) (timer : Option Nat) :
    bufferFrame { u with state := state, supervision := timer } f =
      { (if u.inbound.length < 2 then buffered u f else { u with discarded := countUp u.discarded } : Link) with
        state := state, supervision := timer } := by
  simp only [bufferFrame, Config.inboundSize]
  by_cases h : u.inbound.length < 2
  · simp only [h, if_true]
    unfold promoteLink buffered
    cases hc : u.current with
    | some c => simp
    | none => cases hi : u.inbound <;> simp
  · simp only [h, if_false]

/-- What a valid frame does: its notice, then the buffer or a discard (R144). -/
theorem acceptFrame_noticed (seq : Byte) (payload : List Byte) (s : State) :
    acceptFrame l seq payload s = noticed l
      (if (linkOn s l).inbound.length < 2 then buffered (linkOn s l) ⟨seq, payload, isLost s l⟩
       else { linkOn s l with discarded := countUp (linkOn s l).discarded }) s := by
  have hv : linkOn (validNotice l s) l = { linkOn s l with
      state := (linkOn (validNotice l s) l).state, supervision := (linkOn (validNotice l s) l).supervision } := by
    simp [validNotice]
  rw [← validNotice_noticed, ← bufferFrame_buffered, ← hv]
  rfl

theorem buffered_apart (u : Link) (f : Frame) : (buffered u f).apart = (buffered u.apart f).apart := by
  unfold buffered
  cases hc : u.current with
  | some c => simp [Link.apart, hc]
  | none => cases hi : u.inbound <;> simp [Link.apart, hc, hi]

/-! ### The examination of bytes (R143, R145) -/

/-- What `reception` says of the bytes from a SYNC on (R143). -/
theorem reception_cases (rest : List Byte) :
    (Unfinished (0xC3 :: rest) ∧ reception (0xC3 :: rest) = .incomplete) ∨
    (∃ len more, rest = len :: more ∧ (len.toNat = 0 ∨ 200 < len.toNat) ∧ reception (0xC3 :: rest) = .badLen) ∨
    ∃ type seq payload bs after, rest = bs ++ after ∧ Framed type seq payload bs ∧
      reception (0xC3 :: rest) = .complete (bs.length + 1) := by
  cases rest with
  | nil => exact .inl ⟨.inr (.inl rfl), rfl⟩
  | cons len more =>
    by_cases hl : len.toNat = 0 ∨ 200 < len.toNat
    · exact .inr (.inl ⟨len, more, rfl, hl, by simp [reception, Config.maxPayload, hl]⟩)
    · by_cases hm : len.toNat + 4 ≤ more.length
      · right; right
        obtain ⟨type, more1, rfl⟩ : ∃ x xs, more = x :: xs := List.exists_cons_of_length_pos (by omega)
        obtain ⟨seq, more2, rfl⟩ : ∃ x xs, more1 = x :: xs := by
          apply List.exists_cons_of_length_pos; simp at hm; omega
        simp only [List.length_cons] at hm
        obtain ⟨a, t1, h1⟩ : ∃ x xs, more2.drop len.toNat = x :: xs := by
          apply List.exists_cons_of_length_pos; simp; omega
        obtain ⟨b, t2, h2⟩ : ∃ x xs, t1 = x :: xs := by
          apply List.exists_cons_of_length_pos
          have := congrArg List.length h1; simp at this; omega
        subst h2
        have hp : (more2.take len.toNat).length = len.toNat := by simp; omega
        have e : more2 = more2.take len.toNat ++ a :: b :: t2 := by rw [← h1, List.take_append_drop]
        refine ⟨type, seq, more2.take len.toNat, len :: type :: seq :: more2.take len.toNat ++ [a, b], t2, ?_, ⟨?_, a, b, ?_⟩, ?_⟩
        · simp only [List.cons_append, List.append_assoc, List.nil_append]
          rw [← e]
        · omega
        · simp [hp]
        · have : len.toNat + 6 = (len :: type :: seq :: more2.take len.toNat ++ [a, b]).length + 1 := by simp; omega
          simp only [reception, Config.maxPayload, hl, if_false, List.length_cons]
          rw [if_pos (by omega), this]
      · left
        refine ⟨.inr (.inr ⟨len, more, rfl, by omega, by omega, by omega⟩), ?_⟩
        simp [reception, Config.maxPayload, hl, hm]

/-- The checks of R144 on a complete frame. -/
theorem readFrame_framed {type seq : Byte} {payload bs : List Byte} (h : Framed type seq payload bs) :
    (Valid type seq payload bs → readFrame (0xC3 :: bs) = some (seq, payload)) ∧
      (¬Valid type seq payload bs → readFrame (0xC3 :: bs) = none) := by
  obtain ⟨⟨h1, h2⟩, a, b, rfl⟩ := h
  have hd : (BitVec.ofNat 8 payload.length :: type :: seq :: payload ++ [a, b]).drop (payload.length + 3) = [a, b] := by simp
  have hf : (0xC3 :: (BitVec.ofNat 8 payload.length :: type :: seq :: payload ++ [a, b])).length - 2 = payload.length + 4 := by simp
  have ht : (0xC3 :: (BitVec.ofNat 8 payload.length :: type :: seq :: payload ++ [a, b])).take (payload.length + 4) =
      0xC3 :: BitVec.ofNat 8 payload.length :: type :: seq :: payload := by simp
  have hd' : (0xC3 :: (BitVec.ofNat 8 payload.length :: type :: seq :: payload ++ [a, b])).drop (payload.length + 4) = [a, b] := by
    simp
  have e1 : ∀ x : Byte, unLe [x] = x.toNat := by intro x; simp [unLe]
  have e2 : (type.toNat = 1) ↔ type = 1 := by
    constructor
    · intro h; exact BitVec.eq_of_toNat_eq h
    · rintro rfl; rfl
  simp only [readFrame, hf, ht, hd', Valid, hd]
  simp only [List.drop_succ_cons, List.drop_zero, fieldAt, List.take_succ_cons, List.take_zero, e1, e2]
  constructor <;> intro hv <;> simpa using hv

/-- The bytes are examined as R143 says, up to the choice of a frame beside it. -/
theorem rescan_rescans (truncated : Bool) (fuel : Nat) : ∀ (bs : List Byte) (s t : State), bs.length < fuel → Settled s t →
    ∃ w, Rescans l truncated bs s w ∧ Settled w (rescan l truncated fuel bs t) := by
  induction fuel with
  | zero => intro bs s t h; omega
  | succ fuel ih =>
    intro bs s t hf h
    have hold : ∀ bs, Settled (setLink l { linkOn s l with receiver := bs } s) (setReceiver l bs t) := fun bs =>
      settled_update l (fun u => { u with receiver := bs }) h fun _ => rfl
    have hbad : Settled (setLink l { linkOn s l with badFrames := countUp (linkOn s l).badFrames } s) (countBad l t) :=
      settled_update l (fun u => { u with badFrames := countUp u.badFrames }) h fun _ => rfl
    cases bs with
    | nil => exact ⟨_, .over s, hold []⟩
    | cons b rest =>
      simp only [List.length_cons] at hf
      by_cases hb : b = 0xC3
      · subst hb
        simp only [rescan, syncByte, if_true]
        rcases reception_cases rest with ⟨hu, hr⟩ | ⟨len, more, rfl, hl, hr⟩ | ⟨type, seq, payload, bs, after, rfl, hF, hr⟩
        · rw [hr]; dsimp only
          cases truncated
          · exact ⟨_, .kept rest s rfl hu, hold _⟩
          · obtain ⟨w, hw, hs⟩ := ih rest s t (by omega) h
            exact ⟨w, .dropped rest s w rfl hu hw, by simpa using hs⟩
        · rw [hr]; dsimp only
          obtain ⟨w, hw, hs⟩ := ih (len :: more) _ _ (by omega) hbad
          exact ⟨w, .badLen len more s w hl hw, hs⟩
        · rw [hr]; dsimp only
          have ht : (0xC3 :: (bs ++ after)).take (bs.length + 1) = 0xC3 :: bs := by simp
          have hd : (0xC3 :: (bs ++ after)).drop (bs.length + 1) = after := by simp
          simp only [List.length_append] at hf
          rw [ht]
          by_cases hv : Valid type seq payload bs
          · rw [(readFrame_framed hF).1 hv]
            have hi : (linkOn t l).inbound.length = (linkOn s l).inbound.length := by rw [(apart_fields (h.links l)).2.2.1]
            simp only [acceptFrame_noticed, Config.inboundSize, hd, h.isLost, hi]
            by_cases hm : (linkOn s l).inbound.length < 2
            · simp only [hm, if_true, decide_true]
              obtain ⟨w, hw, hs⟩ := ih after _ _ (by omega)
                (noticed_settled (u := buffered (linkOn s l) ⟨seq, payload, isLost s l⟩)
                  (v := buffered (linkOn t l) ⟨seq, payload, isLost s l⟩) l h
                  (by rw [buffered_apart, h.links, ← buffered_apart]))
              exact ⟨w, .taken type seq payload bs after s w hF hv hm hw, hs⟩
            · simp only [hm, if_false, decide_false]
              obtain ⟨w, hw, hs⟩ := ih (bs ++ after) _ _ (by simp; omega)
                (noticed_settled (u := { linkOn s l with discarded := countUp (linkOn s l).discarded })
                  (v := { linkOn t l with discarded := countUp (linkOn t l).discarded }) l h
                  (by have := h.links l; simp only [Link.apart, Link.mk.injEq] at this ⊢; simp [this]))
              exact ⟨w, .full type seq payload bs after s w hF hv (by omega) hw, by simpa using hs⟩
          · rw [(readFrame_framed hF).2 hv]
            obtain ⟨w, hw, hs⟩ := ih (bs ++ after) _ _ (by simp; omega) hbad
            exact ⟨w, .bad type seq payload bs after s w hF hv hw, hs⟩
      · obtain ⟨w, hw, hs⟩ := ih rest s t (by omega) h
        refine ⟨w, .passed b rest s w hb hw, ?_⟩
        simp only [rescan, syncByte, hb, if_false]
        exact hs

end Sys2Proof.Machine
end

