-- ==== Sys2Proof/Laws/Tracks.lean ====
section
/-! SUPPORT. What the shared operations of a track unit can do: offering a change, entering FAULT, a discontinuity (01). -/

namespace Sys2Proof.Machine

variable (s : State) (k : TrackId)

theorem mem_allLines (n : LineId) : n ∈ allLines := by fin_cases n <;> decide

theorem nodup_allLines : allLines.Nodup := by decide

/-- A notice told to the lines of a list that qualify, one after another. -/
theorem foldl_tellLine (p : LineId → Bool) (m : LineNotice) (ns : List LineId) (h : ns.Nodup) (t : State) :
    ns.foldl (fun t n => if p n then tellLine n m t else t) t =
      setTransit { t.transit with
        toLine := Vector.ofFn fun n => t.transit.toLine[n] ++ if n ∈ ns ∧ p n = true then [m] else [] } t := by
  induction ns generalizing t with
  | nil => simp [setTransit]
  | cons n ns ih =>
    obtain ⟨hn, hs⟩ := List.nodup_cons.mp h
    rw [List.foldl_cons, ih hs]
    by_cases hp : p n = true
    · have hv : (Vector.ofFn fun j : LineId =>
            (t.transit.toLine.set n (t.transit.toLine[n] ++ [m]))[j] ++ if j ∈ ns ∧ p j = true then [m] else []) =
          Vector.ofFn fun j : LineId => t.transit.toLine[j] ++ if j ∈ n :: ns ∧ p j = true then [m] else [] := by
        congr 1
        funext j
        by_cases e : n = j
        · subst e; simp [hn, hp]
        · simp [Fin.val_ne_of_ne e, Ne.symm e]
      rw [if_pos hp, ← hv]
      rfl
    · have hv : (Vector.ofFn fun j : LineId => t.transit.toLine[j] ++ if j ∈ ns ∧ p j = true then [m] else []) =
          Vector.ofFn fun j : LineId => t.transit.toLine[j] ++ if j ∈ n :: ns ∧ p j = true then [m] else [] := by
        congr 1
        funext j
        by_cases e : n = j
        · subst e; simp [hp]
        · simp [Ne.symm e]
      rw [if_neg hp, hv]

/-- Telling the DISTANCE pulses of a track appends the notice for each of them and changes nothing else (R3, R11). -/
theorem tellDistanceLines_eq (m : LineNotice) :
    tellDistanceLines k m s = setTransit { s.transit with toLine := toldLines k m s } s := by
  unfold tellDistanceLines
  rw [foldl_tellLine (fun n => hasDistancePulse s.lines[n] k) m allLines nodup_allLines]
  simp only [toldLines, mem_allLines, true_and]

/-- Offering a position change tells the CSU, MUk and the DISTANCE pulses, and changes nothing else (R3). -/
theorem offerChange_eq : offerChange k s = offered k s.tracks[k].pos s := by
  simp only [offerChange, tellDistanceLines_eq]
  rfl

/-- Entering FAULT does what R11 lists and nothing else. -/
theorem enterFault_faulted (cause : TrackCause) : Faulted k cause s (enterFault k cause s) := by
  simp only [Faulted, enterFault, tellDistanceLines_eq]
  obtain ⟨q, hq⟩ := raiseTrack_frame (setTrack k (faultedTrack s.tracks[k] cause) s) k (.trackState k .fault cause)
  simp only [raiseTrack] at hq ⊢
  have e : routeOwned (setTrack k (faultedTrack s.tracks[k] cause) s)
      (trackOwner (setTrack k (faultedTrack s.tracks[k] cause) s) k) = routeOwned s (trackOwner s k) := rfl
  rw [e] at hq ⊢
  simp only [faultedTrack] at hq ⊢
  rw [hq]
  rfl

end Sys2Proof.Machine
end

