-- ==== Sys2Proof/Laws/Lines.lean ====
section
/-! SUPPORT. What the shared operations of the lines can do, and of a track whose notices have all been taken: the end of a pulse, a
change of every line, the taking of notices before a command (01, 06, log 4). -/

namespace Sys2Proof.Machine

variable (s : State)

/-- Writing back what stands at a place changes nothing. -/
theorem set_getElem_same {α : Type} {n : Nat} (v : Vector α n) (k : Fin n) : v.set k v[k] = v := by
  simp only [Fin.getElem_fin, Vector.set_getElem_self]

/-! ### Lines -/

/-- The end of a pulse does what R111 says and nothing else. -/
theorem endPulse_eq (n : LineId) (p : Pulse) (h : s.lines[n].pulse = some p) : endPulse n s = pulseOver n p s := by
  simp only [endPulse, h, pulseOver, rested]
  by_cases h0 : p.holdoff = 0
  · simp only [h0, if_true]; rfl
  · simp only [h0, if_false]; rfl

/-- A truncated pulse is reported, and ends as R111 says (R109, R110). -/
theorem truncatePulse_eq (n : LineId) (reason : Truncation) (p : Pulse) (h : s.lines[n].pulse = some p) :
    truncatePulse n reason s = cutShort n p reason s := by
  have h' : (raiseLine n (.pulseTruncated n reason) s).lines[n].pulse = some p := by simpa using h
  rw [truncatePulse, endPulse_eq _ _ _ h']; rfl

/-- A change of the lines of a list, one after another. -/
theorem foldl_setLine (f : Line → Line) (ns : List LineId) (h : ns.Nodup) (t : State) :
    ns.foldl (fun t n => setLine n (f t.lines[n]) t) t =
      { t with lines := Vector.ofFn fun n : LineId => if n ∈ ns then f t.lines[n] else t.lines[n] } := by
  induction ns generalizing t with
  | nil =>
    have : (Vector.ofFn fun n : LineId => if n ∈ ([] : List LineId) then f t.lines[n] else t.lines[n]) = t.lines := by
      ext; simp
    rw [this]; rfl
  | cons n ns ih =>
    obtain ⟨hn, hs⟩ := List.nodup_cons.mp h
    rw [List.foldl_cons, ih hs]
    have : (Vector.ofFn fun j : LineId =>
          if j ∈ ns then f (t.lines.set n (f t.lines[n]))[j] else (t.lines.set n (f t.lines[n]))[j]) =
        Vector.ofFn fun j : LineId => if j ∈ n :: ns then f t.lines[j] else t.lines[j] := by
      congr 1; funext j
      by_cases e : n = j
      · subst e; simp [hn]
      · simp [Fin.val_ne_of_ne e, Ne.symm e]
    rw [← this]; rfl

/-! ### A track with no notice on its way (log 4) -/

theorem putToCsu_nil (k : TrackId) (h : s.transit.toCsu[k] = []) : putToCsu k [] s = s := by
  have := set_getElem_same s.transit.toCsu k
  rw [h] at this; simp [putToCsu, setTransit, this]

theorem putToMark_nil (k : TrackId) (h : s.transit.toMark[k] = []) : putToMark k [] s = s := by
  have := set_getElem_same s.transit.toMark k
  rw [h] at this; simp [putToMark, setTransit, this]

theorem putToLine_nil (n : LineId) (h : s.transit.toLine[n] = []) : putToLine n [] s = s := by
  have := set_getElem_same s.transit.toLine n
  rw [h] at this; simp [putToLine, setTransit, this]

/-- With no notice on its way and no event in progress, none is taken before a command. -/
theorem settleNotices_nil (k : TrackId) (h1 : s.csu.evaluation = none) (h2 : s.transit.toCsu[k] = [])
    (h3 : s.transit.toMark[k] = []) : settleNotices k s = s := by
  simp only [settleNotices, takeAllCsuNotices, finishEvaluation_none s h1, h2, List.foldl_nil, putToCsu_nil s k h2,
    takeAllMarkNotices, h3, takeMarkNotices]

/-- The same with the notices to the lines of the track (R18, R58). -/
theorem settleAllNotices_nil (k : TrackId) (h1 : s.csu.evaluation = none) (h2 : s.transit.toCsu[k] = [])
    (h3 : s.transit.toMark[k] = []) (h4 : ∀ n : LineId, s.lines[n].cfg.track = k → s.transit.toLine[n] = []) :
    settleAllNotices k s = s := by
  rw [settleAllNotices, settleNotices_nil s k h1 h2 h3]
  induction allLines with
  | nil => rfl
  | cons n ns ih =>
    rw [List.foldl_cons]
    split
    · rename_i h; rw [takeAllLineNotices, h4 n h, putToLine_nil _ _ (h4 n h)]; exact ih
    · exact ih

/-! ### Position changes and source errors -/

theorem isTracking_eq (k : TrackId) (h : s.tracks[k].state ≠ .disabled) :
    isTracking s k = (s.tracks[k].state != .fault) := by
  revert h; simp only [isTracking]; cases s.tracks[k].state <;> simp

/-- A change within the range moves the position, and is offered in SETTLING and RUNNING (R3, R10). -/
theorem applyChange_inRange (k : TrackId) (d : Int) (hd : d ≠ 0) (hr : inRange (s.tracks[k].pos + d) = true) :
    applyChange k d s =
      let u := setTrack k { s.tracks[k] with pos := s.tracks[k].pos + d } s
      if isTracking s k then offered k (s.tracks[k].pos + d) u else u := by
  have hm : movedTrack s.tracks[k] d = { s.tracks[k] with pos := s.tracks[k].pos + d } := by
    have := of_decide_eq_true hr
    simp only [movedTrack]
    rw [if_neg (by omega), if_neg (by omega)]
  simp only [applyChange, hd, if_false, hr, hm, offerChange_eq]
  simp [isTracking]

/-- A source error in FAULT changes no state (R9). -/
theorem judgeSourceError_fault (k : TrackId) (c : TrackCause) (b : Bool) (h : s.tracks[k].state = .fault) :
    judgeSourceError k c b s = s := by simp only [judgeSourceError, h]

/-- A source error below the limit in RUNNING changes no state (R9). -/
theorem judgeSourceError_running (k : TrackId) (c : TrackCause) (h : s.tracks[k].state = .running) :
    judgeSourceError k c false s = s := by
  simp [judgeSourceError, h, -Fin.getElem_fin]

/-- A source error at the limit in SETTLING and RUNNING is a fault entry (R9). -/
theorem judgeSourceError_limit (k : TrackId) (c : TrackCause) (h1 : s.tracks[k].state ≠ .disabled)
    (h2 : s.tracks[k].state ≠ .fault) : judgeSourceError k c true s = enterFault k c s := by
  revert h1 h2; simp only [judgeSourceError]; cases s.tracks[k].state <;> simp

end Sys2Proof.Machine
end

