-- ==== Sys2Proof/Laws/Loads.lean ====
section
/-! SUPPORT. What the shared operations of the Load Supervisor can do: latching, forcing, a moment of judgement, the visits of a
sweep and its end (07). -/

namespace Sys2Proof.Machine

variable (s : State) (n : LineId)

theorem setLoad_get (u : Load) : (setLoad n u s).loads[n] = u := by simp [setLoad]

/-- Adding a kind to a set leaves it as it was exactly when the kind is in it. -/
theorem FaultSet.add_eq_self (f : FaultSet) (kind : FaultKind) : f.add kind = f ↔ f.has kind = true := by
  cases f; cases kind <;> simp [FaultSet.add, FaultSet.has]

/-- Latching does what R128 says and nothing else. -/
theorem latch_eq (kind : FaultKind) : latch n kind s = learned n kind s := by
  have h := FaultSet.add_eq_self s.loads[n].latched kind
  simp only [latch, learned]
  cases kind <;> simp only [FaultSet.add, FaultSet.has] at * <;> simp only [Bool.or_eq_true, h] <;> rfl

/-- Forcing hands the forcing over and sets the view and the blanking timer (R115, R124). -/
theorem forceLine_eq : forceLine n s = forcedOut n s := rfl

/-- Latching with forcing: nothing for a masked kind, else the latch and then the forcing (R126, R127, R128). -/
theorem latchForcing_eq (kind : FaultKind) :
    latchForcing n kind s = if s.loads[n].masked.has kind then s else forcedOut n (learned n kind s) := by
  simp only [latchForcing, latch_eq, forceLine_eq]

/-- A moment of judgement outside a probe (R124 to R128). -/
theorem judge_eq (h : ¬(s.loads[n].view = .probe ∧ s.loads[n].sense = .overcurrent)) : judge n s = judgedNow n s := by
  simp only [judge, judgedNow, latchForcing_eq, latch_eq, FaultSet.has]
  generalize s.loads[n].view = v at *
  generalize s.loads[n].sense = c at *
  cases v <;> cases c <;> simp at * <;> grind

/-- A line without notices on their way has none taken. -/
theorem takeAllLoadNotices_nil (h : s.transit.toLsv[n] = []) : takeAllLoadNotices n s = s := by
  have : s.transit.toLsv.set n [] = s.transit.toLsv := by
    rw [← h]; simp only [Fin.getElem_fin, Vector.set_getElem_self]
  simp only [takeAllLoadNotices, h, List.foldl, putToLsv, setTransit, this]

/-- Latching touches the LSV's items of the line and the report queue, and nothing else (R128). -/
theorem learned_frame (kind : FaultKind) :
    (learned n kind s).lines = s.lines ∧ (learned n kind s).transit.forcing = s.transit.forcing := by
  rw [← latch_eq, latch]
  split
  · exact ⟨rfl, rfl⟩
  · unfold raiseLine raiseRouted; split <;> exact ⟨rfl, rfl⟩

/-- A forcing that no notice of its line precedes: the line enters FAULT unless DISABLED, and a probe in progress ends with the free
result and the sweep goes on (R115, R135, log 29). -/
theorem takeForcing_quiet (h : s.transit.forcing[n] = true) (hq : s.transit.toLsv[n] = []) :
    takeForcing n s =
      let t := putForcing n false s
      if s.lines[n].state = .disabled then t
      else if probing s n then continueSweep n (judge n (quietLoad n (setLine n (forcedLine s.lines[n]) (endForcedProbe n t))))
      else judge n (quietLoad n (setLine n (forcedLine s.lines[n]) t)) := by
  simp only [takeForcing, h, if_true, takeAllLoadNotices_nil s n hq]
  rfl

/-! ### The sweep -/

theorem countResults_eq (p : SweepResult → Bool) :
    countResults s p = ((List.finRange 16).filter fun n => p s.sweep.results[n]).length := by
  have e : s.sweep.results.toList = (List.finRange 16).map fun n => s.sweep.results[n] := by
    apply List.ext_getElem <;> simp
  rw [countResults, e, List.filter_map, List.length_map]; rfl

theorem skipped_count (ns : List LineId) (v : Vector SweepResult 16) :
    (ns.filter fun n => v[n].skipped).length = (ns.filter fun n => v[n] = .notEnabled).length +
      (ns.filter fun n => v[n] = .skippedMasked).length + (ns.filter fun n => v[n] = .skippedBusy).length := by
  induction ns with
  | nil => rfl
  | cons a ns ih =>
    simp only [List.filter_cons]
    generalize v[a] = r
    cases r <;> simp [SweepResult.skipped] at ih ⊢ <;> omega

/-- The end of a sweep does what R137 says and nothing else. -/
theorem endSweep_eq : endSweep s = sweepOver s := by
  have e : ∀ r : SweepResult, (fun n : LineId => s.sweep.results[n] == r) = fun n : LineId => decide (s.sweep.results[n] = r) :=
    fun r => funext fun n => beq_eq_decide ..
  have h := skipped_count (List.finRange 16) s.sweep.results
  have hd : sweepDone (setSweep { s.sweep with running := false, current := none, probeTimer := none, request := none } s) =
      (let count := fun r => ((List.finRange 16).filter fun n => s.sweep.results[n] = r).length
       Report.sweepDone (count .pass) (count .openLoad) (count .overload)
        (count .notEnabled + count .skippedMasked + count .skippedBusy) s.sweep.aborted) := by
    simp only [sweepDone, countResults_eq, setSweep, e, h]
  unfold endSweep raiseSweepDone sweepOver
  simp only [hd]
  cases hs : s.sweep.starter with
  | link l =>
    simp only [setSweep]
    show (if isLost s l then _ else _) = _
    split <;> rfl
  | _ => rfl

theorem passedOver_self (i : Nat) : passedOver s i i = s.sweep.results := by
  apply Vector.ext; intro j hj
  have : ¬(i ≤ j ∧ j < i) := by omega
  simp [passedOver, this]

theorem passedOver_step (i : Nat) (hi : i < 16) (r : SweepResult) (j : Nat) (hij : i + 1 ≤ j) (c : Option LineId)
    (hr : r = if s.lines[(⟨i, hi⟩ : LineId)].state = .disabled then .notEnabled else .skippedMasked) :
    passedOver (setResult ⟨i, hi⟩ r (setSweep { s.sweep with current := c } s)) (i + 1) j = passedOver s i j := by
  apply Vector.ext; intro x hx
  simp only [passedOver, Vector.getElem_ofFn, setResult, setSweep, Fin.getElem_fin, Vector.getElem_set] at *
  by_cases h1 : x = i
  · subst h1; simp [hr]; intro h; omega
  · have h2 : i ≠ x := fun h => h1 h.symm
    have h3 : (i + 1 ≤ x ∧ x < j) ↔ (i ≤ x ∧ x < j) := by omega
    simp only [h3, h2]; simp; try rfl

/-- The visits from line `i` on stop at the first line that takes a probe start, or end the sweep (R134, R137). -/
theorem visitLines_wentOn (i : Nat) (hi : i ≤ 16) : WentOn i s (visitLines (allLines.drop i) s) := by
  obtain ⟨m, hm⟩ : ∃ m, i + m = 16 := ⟨16 - i, by omega⟩
  induction m generalizing i s with
  | zero =>
    have : i = 16 := by omega
    subst this
    refine .inr ⟨fun n hn => by omega, ?_⟩
    simp only [allLines, List.drop, visitLines, endSweep_eq, passedOver_self]
  | succ m ih =>
    have hi' : i < 16 := by omega
    have hd : allLines.drop i = ⟨i, hi'⟩ :: allLines.drop (i + 1) := by
      clear * - hi'; interval_cases i <;> rfl
    rw [hd, visitLines]
    dsimp only
    have step : ∀ r, (r = if s.lines[(⟨i, hi'⟩ : LineId)].state = .disabled then .notEnabled else .skippedMasked) →
        ¬TakesProbe s ⟨i, hi'⟩ → WentOn i s (visitLines (allLines.drop (i + 1))
          (setResult ⟨i, hi'⟩ r (setSweep { s.sweep with current := some ⟨i, hi'⟩ } s))) := by
      intro r hr hn
      have out : ∀ n : LineId, i ≤ n.val → (i + 1 ≤ n.val → ¬TakesProbe s n) → ¬TakesProbe s n := by
        intro n a h
        by_cases e : n = ⟨i, hi'⟩
        · rw [e]; exact hn
        · exact h (by have : n.val ≠ i := fun h => e (Fin.ext h)
                      omega)
      rcases ih (s := setResult ⟨i, hi'⟩ r (setSweep { s.sweep with current := some ⟨i, hi'⟩ } s)) (i + 1) (by omega) (by omega)
        with ⟨q, h1, h2, h3, h4⟩ | ⟨h3, h4⟩
      · refine .inl ⟨q, by omega, h2, fun n a b => out n a fun a => h3 n a b, ?_⟩
        rw [h4, passedOver_step _ _ _ _ _ h1 _ hr]; rfl
      · refine .inr ⟨fun n a => out n a fun a => h3 n a, ?_⟩
        rw [h4, passedOver_step _ _ _ _ _ (by omega) _ hr]; rfl
    split
    · rename_i h
      have h : s.lines[(⟨i, hi'⟩ : LineId)].state = .disabled := h
      exact step _ (by rw [if_pos h]) fun hh => hh.1 h
    · rename_i h
      have h : ¬s.lines[(⟨i, hi'⟩ : LineId)].state = .disabled := h
      split
      · rename_i h'
        have h' : s.loads[(⟨i, hi'⟩ : LineId)].masked.openLoad = true := h'
        exact step _ (by rw [if_neg h]) fun hh => by rw [hh.2] at h'; cases h'
      · rename_i h'
        refine .inl ⟨⟨i, hi'⟩, le_refl _, ⟨h, by simpa using h'⟩, fun n a b => absurd b ?_, ?_⟩
        · show ¬n.val < i
          omega
        · rw [passedOver_self]; rfl

/-- The sweep goes on with the line after `n` (R134). -/
theorem continueSweep_wentOn : WentOn (n.val + 1) s (continueSweep n s) := visitLines_wentOn _ _ (by omega)

/-- OVERCURRENT in a probe ends it with OVERLOAD, and the sweep goes on (R126, R133, R135). -/
theorem probeOverload_probing (h : probing s n = true) : probeOverload n s = continueSweep n (overloaded n s) := by
  obtain ⟨h1, h2⟩ := learned_frame (probeDone n .overload s) n .overload
  have e : setView n .inactive (stopProbe (setResult n .overload s)) = probeDone n .overload s := rfl
  have hm : (probeDone n .overload s).loads[n].masked = s.loads[n].masked := by
    show (setLoad n _ _).loads[n].masked = _
    rw [setLoad_get]
  have hl : (probeDone n .overload s).lines = s.lines := rfl
  have hf : (probeDone n .overload s).transit.forcing = s.transit.forcing := rfl
  simp only [probeOverload, h, if_true, e, hm, overloaded, latch_eq]
  rw [hl] at h1
  rw [hf] at h2
  congr 1
  split
  · rfl
  · generalize learned n .overload (probeDone n .overload s) = x at h1 h2
    simp only [forceProbedLine, h1, forceLine_eq]
    split
    · rename_i h3
      simp only [forcedLine, h3, quietLoad, putForcing, setTransit, setLoad, setLine, h1, h2]
      simp
    · rfl
end Sys2Proof.Machine
end

