-- ==== Sys2Proof/Laws/Operands.lean ====
section
/-! SUPPORT. The bytes of a field are read back as its value (R184). -/

namespace Sys2Proof.Machine

/-- Lowest byte first, read back: the value within its bytes (00, "Byte order"). -/
theorem unLe_le (n v : Nat) : unLe (le n v) = v % 256 ^ n := by
  induction n generalizing v with
  | zero => simp [le, unLe, Nat.mod_one]
  | succ n ih =>
    simp only [le, unLe, ih, BitVec.toNat_ofNat]
    have e : (256 : Nat) ^ (n + 1) = 256 * 256 ^ n := by ring
    have m : v % (256 * 256 ^ n) = v % 256 + 256 * (v / 256 % 256 ^ n) := Nat.mod_mul
    rw [e, m]

@[simp] theorem length_le (n v : Nat) : (le n v).length = n := by
  induction n generalizing v with
  | zero => rfl
  | succ n ih => simp [le, ih]

@[simp] theorem length_leInt (n : Nat) (v : Int) : (leInt n v).length = n := by simp [leInt]

/-- A two's complement field of 6 bytes is read back as the position it carries (R184). -/
theorem toSigned_leInt6 {v : Int} (h : inRange v = true) : toSigned 6 (unLe (leInt 6 v)) = v := by
  replace h : -140737488355328 ≤ v ∧ v ≤ 140737488355327 := of_decide_eq_true h
  have h0 := Int.emod_nonneg v (b := 281474976710656) (by norm_num)
  have h1 := Int.emod_lt_of_pos v (b := 281474976710656) (by norm_num)
  simp only [leInt, unLe_le, toSigned]
  norm_num
  rw [Nat.mod_eq_of_lt (by omega)]
  split <;> omega

/-- A two's complement field of 4 bytes is read back as the value it carries (R184). -/
theorem toSigned_leInt4 {v : Int} (h : -2147483648 ≤ v ∧ v ≤ 2147483647) : toSigned 4 (unLe (leInt 4 v)) = v := by
  have h0 := Int.emod_nonneg v (b := 4294967296) (by norm_num)
  have h1 := Int.emod_lt_of_pos v (b := 4294967296) (by norm_num)
  simp only [leInt, unLe_le, toSigned]
  norm_num
  rw [Nat.mod_eq_of_lt (by omega)]
  split <;> omega

@[simp] theorem parseTrack_index (c : Byte) (k : TrackId) : parseTrack [c, indexByte k] = .ok k := by
  fin_cases k <;> rfl

@[simp] theorem parseLine_index (c : Byte) (n : LineId) : parseLine [c, indexByte n] = .ok n := by
  fin_cases n <;> rfl

@[simp] theorem parseResource_index (c : Byte) (r : Fin 20) : parseResource [c, indexByte r] = .ok r := by
  fin_cases r <;> rfl

@[simp] theorem parseLink_code (c : Byte) (l : LinkId) : parseLink [c, linkCode l] = .ok l := by
  cases l <;> rfl

@[simp] theorem parseSeq_byte (c q : Byte) : parseSeq [c, q] = .ok q := by
  simp [parseSeq, judged, fieldAt, unLe]

@[simp] theorem parseNone_code (c : Byte) : parseNone [c] = .ok () := rfl

@[simp] theorem parseClaim_index (c : Byte) (r : Fin 20) (p : LossPolicy) :
    parseClaim [c, indexByte r, p.code] = .ok (r, p) := by
  fin_cases r <;> cases p <;> rfl

/-- The operands of PRESET and REBASE are read back (R15, R18). -/
theorem parseTrackValue_bytes (c : Byte) (k : TrackId) {v : Int} (h : inRange v = true) :
    parseTrackValue (c :: indexByte k :: leInt 6 v) = .ok (k, v) := by
  have e : toSigned 6 (unLe (List.take 6 (leInt 6 v))) = v := by
    rw [List.take_of_length_le (by simp)]; exact toSigned_leInt6 h
  have hk : ∀ k : TrackId, indexOf 4 (unLe [indexByte k]) = some k := by decide
  simp [parseTrackValue, judged, fieldAt, signedAt, e, hk]

end Sys2Proof.Machine
end

