-- ==== Sys2Proof/Laws/PerInstr.lean ====
section
/-! SUPPORT. Facts about every command as syntax, one lemma per constructor of Instr. -/

namespace Sys2Proof.Laws.Framed

/-- The payload of the frame that a host command is, its command code first (Table 11-3); none for every other row. -/
def payload : Instr → Option (List Byte)
  | .powerOn => none
  | .resetn => none
  | .ping _ _ args => some (0x01 :: args)
  | .identify _ _ args => some (0x02 :: args)
  | .setLink _ _ args => some (0x03 :: args)
  | .queryLink _ _ args => some (0x04 :: args)
  | .ackReports _ _ args => some (0x05 :: args)
  | .setRoute _ _ args => some (0x06 :: args)
  | .reset _ _ args => some (0x07 :: args)
  | .claim _ _ args => some (0x10 :: args)
  | .release _ _ args => some (0x11 :: args)
  | .queryClaims _ _ args => some (0x12 :: args)
  | .setTrack _ _ args => some (0x20 :: args)
  | .enableTrack _ _ args => some (0x21 :: args)
  | .disableTrack _ _ args => some (0x22 :: args)
  | .preset _ _ args => some (0x23 :: args)
  | .home _ _ args => some (0x24 :: args)
  | .rebase _ _ args => some (0x25 :: args)
  | .queryTrack _ _ args => some (0x26 :: args)
  | .clearTrackFault _ _ args => some (0x27 :: args)
  | .setSim _ _ args => some (0x28 :: args)
  | .clearStats _ _ args => some (0x29 :: args)
  | .addCue _ _ args => some (0x30 :: args)
  | .cancelCue _ _ args => some (0x31 :: args)
  | .flush _ _ args => some (0x32 :: args)
  | .queryCue _ _ args => some (0x33 :: args)
  | .querySchedule _ _ args => some (0x34 :: args)
  | .queryPool _ _ args => some (0x35 :: args)
  | .setMark _ _ args => some (0x40 :: args)
  | .armMarks _ _ args => some (0x41 :: args)
  | .disarmMarks _ _ args => some (0x42 :: args)
  | .setTemplate _ _ args => some (0x43 :: args)
  | .queryMarks _ _ args => some (0x44 :: args)
  | .setLine _ _ args => some (0x50 :: args)
  | .setProfile _ _ args => some (0x51 :: args)
  | .forceLine _ _ args => some (0x52 :: args)
  | .queryLine _ _ args => some (0x53 :: args)
  | .clearLineFault _ _ args => some (0x54 :: args)
  | .setSupervision _ _ args => some (0x55 :: args)
  | .startSweep _ _ args => some (0x56 :: args)
  | .querySweep _ _ args => some (0x57 :: args)
  | .unknownCommand _ _ code args => some (code :: args)
  | .duplicate _ _ payload => some payload
  | .completeFrame _ => none
  | .gapTruncation => none
  | .cs1nRise => none
  | .badLenDiscard _ => none
  | .replySent _ => none
  | .sentNotice _ => none
  | .pendingBaudRateApplied => none
  | .linkLoss _ => none
  | .flushLossPolicy => none
  | .markUnitOffNotice _ => none
  | .lineLossPolicy _ => none
  | .reportRecord _ => none
  | .resendExpiry _ => none
  | .phaseChange _ _ _ => none
  | .indexEdge _ => none
  | .sampleTimerExpiry _ => none
  | .transferCompletion _ _ _ _ _ => none
  | .updateIntervalExpiry _ => none
  | .settleExpiry _ => none
  | .windowEnd _ => none
  | .evaluationEvent _ => none
  | .firingRequest _ => none
  | .discontinuityNotice _ => none
  | .resumeNotice _ => none
  | .freezeNotice _ => none
  | .spawnRequest _ => none
  | .markEdge _ _ => none
  | .markPositionChange _ => none
  | .markFaultNotice _ => none
  | .markDiscontinuityNotice _ => none
  | .distancePulseEnd _ => none
  | .trackNoticeAtLine _ => none
  | .timePulseEnd _ => none
  | .maxOnExpiry _ => none
  | .holdoffExpiry _ => none
  | .inhibitAssertion => none
  | .inhibitRelease => none
  | .abortByInhibit => none
  | .senseEvent _ _ => none
  | .forcing _ => none
  | .driveViewNotice _ => none
  | .blankingExpiry _ => none
  | .periodTimerExpiry => none
  | .probeStart _ => none
  | .probeTimerExpiry => none
  | .abandonment _ => none
  | .receivedByte _ _ => none
  | .cs1nFall => none

/-- A well-formed command that is a frame has a payload of 1 to 200 bytes (R143). -/
def Statement (i : Instr) : Prop := ∀ p, payload i = some p → i.wellFormed = true → 1 ≤ p.length ∧ p.length ≤ 200

/-- A command code with argument bytes that fit is a payload that fits. -/
theorem fits_of_args {code : Byte} {args p : List Byte} (hp : some (code :: args) = some p) (h : argsFit args = true) :
    1 ≤ p.length ∧ p.length ≤ 200 := by
  cases hp
  exact ⟨Nat.le_add_left 1 _, of_decide_eq_true h⟩

theorem powerOn : Statement .powerOn := fun _ hp => nomatch hp
theorem resetn : Statement .resetn := fun _ hp => nomatch hp
theorem ping (l : LinkId) (seq : Byte) (args : List Byte) : Statement (.ping l seq args) := fun _ hp h => fits_of_args hp h
theorem identify (l : LinkId) (seq : Byte) (args : List Byte) : Statement (.identify l seq args) := fun _ hp h => fits_of_args hp h
theorem setLink (l : LinkId) (seq : Byte) (args : List Byte) : Statement (.setLink l seq args) := fun _ hp h => fits_of_args hp h
theorem queryLink (l : LinkId) (seq : Byte) (args : List Byte) : Statement (.queryLink l seq args) := fun _ hp h => fits_of_args hp h
theorem ackReports (l : LinkId) (seq : Byte) (args : List Byte) : Statement (.ackReports l seq args) := fun _ hp h => fits_of_args hp h
theorem setRoute (l : LinkId) (seq : Byte) (args : List Byte) : Statement (.setRoute l seq args) := fun _ hp h => fits_of_args hp h
theorem reset (l : LinkId) (seq : Byte) (args : List Byte) : Statement (.reset l seq args) := fun _ hp h => fits_of_args hp h
theorem claim (l : LinkId) (seq : Byte) (args : List Byte) : Statement (.claim l seq args) := fun _ hp h => fits_of_args hp h
theorem release (l : LinkId) (seq : Byte) (args : List Byte) : Statement (.release l seq args) := fun _ hp h => fits_of_args hp h
theorem queryClaims (l : LinkId) (seq : Byte) (args : List Byte) : Statement (.queryClaims l seq args) := fun _ hp h => fits_of_args hp h
theorem setTrack (l : LinkId) (seq : Byte) (args : List Byte) : Statement (.setTrack l seq args) := fun _ hp h => fits_of_args hp h
theorem enableTrack (l : LinkId) (seq : Byte) (args : List Byte) : Statement (.enableTrack l seq args) := fun _ hp h => fits_of_args hp h
theorem disableTrack (l : LinkId) (seq : Byte) (args : List Byte) : Statement (.disableTrack l seq args) := fun _ hp h => fits_of_args hp h
theorem preset (l : LinkId) (seq : Byte) (args : List Byte) : Statement (.preset l seq args) := fun _ hp h => fits_of_args hp h
theorem home (l : LinkId) (seq : Byte) (args : List Byte) : Statement (.home l seq args) := fun _ hp h => fits_of_args hp h
theorem rebase (l : LinkId) (seq : Byte) (args : List Byte) : Statement (.rebase l seq args) := fun _ hp h => fits_of_args hp h
theorem queryTrack (l : LinkId) (seq : Byte) (args : List Byte) : Statement (.queryTrack l seq args) := fun _ hp h => fits_of_args hp h
theorem clearTrackFault (l : LinkId) (seq : Byte) (args : List Byte) : Statement (.clearTrackFault l seq args) := fun _ hp h => fits_of_args hp h
theorem setSim (l : LinkId) (seq : Byte) (args : List Byte) : Statement (.setSim l seq args) := fun _ hp h => fits_of_args hp h
theorem clearStats (l : LinkId) (seq : Byte) (args : List Byte) : Statement (.clearStats l seq args) := fun _ hp h => fits_of_args hp h
theorem addCue (l : LinkId) (seq : Byte) (args : List Byte) : Statement (.addCue l seq args) := fun _ hp h => fits_of_args hp h
theorem cancelCue (l : LinkId) (seq : Byte) (args : List Byte) : Statement (.cancelCue l seq args) := fun _ hp h => fits_of_args hp h
theorem flush (l : LinkId) (seq : Byte) (args : List Byte) : Statement (.flush l seq args) := fun _ hp h => fits_of_args hp h
theorem queryCue (l : LinkId) (seq : Byte) (args : List Byte) : Statement (.queryCue l seq args) := fun _ hp h => fits_of_args hp h
theorem querySchedule (l : LinkId) (seq : Byte) (args : List Byte) : Statement (.querySchedule l seq args) := fun _ hp h => fits_of_args hp h
theorem queryPool (l : LinkId) (seq : Byte) (args : List Byte) : Statement (.queryPool l seq args) := fun _ hp h => fits_of_args hp h
theorem setMark (l : LinkId) (seq : Byte) (args : List Byte) : Statement (.setMark l seq args) := fun _ hp h => fits_of_args hp h
theorem armMarks (l : LinkId) (seq : Byte) (args : List Byte) : Statement (.armMarks l seq args) := fun _ hp h => fits_of_args hp h
theorem disarmMarks (l : LinkId) (seq : Byte) (args : List Byte) : Statement (.disarmMarks l seq args) := fun _ hp h => fits_of_args hp h
theorem setTemplate (l : LinkId) (seq : Byte) (args : List Byte) : Statement (.setTemplate l seq args) := fun _ hp h => fits_of_args hp h
theorem queryMarks (l : LinkId) (seq : Byte) (args : List Byte) : Statement (.queryMarks l seq args) := fun _ hp h => fits_of_args hp h
theorem setLine (l : LinkId) (seq : Byte) (args : List Byte) : Statement (.setLine l seq args) := fun _ hp h => fits_of_args hp h
theorem setProfile (l : LinkId) (seq : Byte) (args : List Byte) : Statement (.setProfile l seq args) := fun _ hp h => fits_of_args hp h
theorem forceLine (l : LinkId) (seq : Byte) (args : List Byte) : Statement (.forceLine l seq args) := fun _ hp h => fits_of_args hp h
theorem queryLine (l : LinkId) (seq : Byte) (args : List Byte) : Statement (.queryLine l seq args) := fun _ hp h => fits_of_args hp h
theorem clearLineFault (l : LinkId) (seq : Byte) (args : List Byte) : Statement (.clearLineFault l seq args) := fun _ hp h => fits_of_args hp h
theorem setSupervision (l : LinkId) (seq : Byte) (args : List Byte) : Statement (.setSupervision l seq args) := fun _ hp h => fits_of_args hp h
theorem startSweep (l : LinkId) (seq : Byte) (args : List Byte) : Statement (.startSweep l seq args) := fun _ hp h => fits_of_args hp h
theorem querySweep (l : LinkId) (seq : Byte) (args : List Byte) : Statement (.querySweep l seq args) := fun _ hp h => fits_of_args hp h
theorem unknownCommand (l : LinkId) (seq code : Byte) (args : List Byte) : Statement (.unknownCommand l seq code args) := fun _ hp h =>
  fits_of_args hp (Bool.and_eq_true_iff.1 h).1
theorem duplicate (l : LinkId) (seq : Byte) (payload : List Byte) : Statement (.duplicate l seq payload) := fun _ hp h => by
  cases hp; exact of_decide_eq_true h
theorem completeFrame (l : LinkId) : Statement (.completeFrame l) := fun _ hp => nomatch hp
theorem gapTruncation : Statement .gapTruncation := fun _ hp => nomatch hp
theorem cs1nRise : Statement .cs1nRise := fun _ hp => nomatch hp
theorem badLenDiscard (l : LinkId) : Statement (.badLenDiscard l) := fun _ hp => nomatch hp
theorem replySent (l : LinkId) : Statement (.replySent l) := fun _ hp => nomatch hp
theorem sentNotice (l : LinkId) : Statement (.sentNotice l) := fun _ hp => nomatch hp
theorem pendingBaudRateApplied : Statement .pendingBaudRateApplied := fun _ hp => nomatch hp
theorem linkLoss (l : LinkId) : Statement (.linkLoss l) := fun _ hp => nomatch hp
theorem flushLossPolicy : Statement .flushLossPolicy := fun _ hp => nomatch hp
theorem markUnitOffNotice (k : TrackId) : Statement (.markUnitOffNotice k) := fun _ hp => nomatch hp
theorem lineLossPolicy (n : LineId) : Statement (.lineLossPolicy n) := fun _ hp => nomatch hp
theorem reportRecord (l : LinkId) : Statement (.reportRecord l) := fun _ hp => nomatch hp
theorem resendExpiry (l : LinkId) : Statement (.resendExpiry l) := fun _ hp => nomatch hp
theorem phaseChange (k : TrackId) (a b : Bool) : Statement (.phaseChange k a b) := fun _ hp => nomatch hp
theorem indexEdge (k : TrackId) : Statement (.indexEdge k) := fun _ hp => nomatch hp
theorem sampleTimerExpiry (k : TrackId) : Statement (.sampleTimerExpiry k) := fun _ hp => nomatch hp
theorem transferCompletion (k : TrackId) (start : Bool) (raw : BitVec 32) (parity stop : Bool) : Statement (.transferCompletion k start raw parity stop) := fun _ hp => nomatch hp
theorem updateIntervalExpiry (k : TrackId) : Statement (.updateIntervalExpiry k) := fun _ hp => nomatch hp
theorem settleExpiry (k : TrackId) : Statement (.settleExpiry k) := fun _ hp => nomatch hp
theorem windowEnd (k : TrackId) : Statement (.windowEnd k) := fun _ hp => nomatch hp
theorem evaluationEvent (k : TrackId) : Statement (.evaluationEvent k) := fun _ hp => nomatch hp
theorem firingRequest (n : LineId) : Statement (.firingRequest n) := fun _ hp => nomatch hp
theorem discontinuityNotice (k : TrackId) : Statement (.discontinuityNotice k) := fun _ hp => nomatch hp
theorem resumeNotice (k : TrackId) : Statement (.resumeNotice k) := fun _ hp => nomatch hp
theorem freezeNotice (k : TrackId) : Statement (.freezeNotice k) := fun _ hp => nomatch hp
theorem spawnRequest (k : TrackId) : Statement (.spawnRequest k) := fun _ hp => nomatch hp
theorem markEdge (k : TrackId) (edge : MarkEdge) : Statement (.markEdge k edge) := fun _ hp => nomatch hp
theorem markPositionChange (k : TrackId) : Statement (.markPositionChange k) := fun _ hp => nomatch hp
theorem markFaultNotice (k : TrackId) : Statement (.markFaultNotice k) := fun _ hp => nomatch hp
theorem markDiscontinuityNotice (k : TrackId) : Statement (.markDiscontinuityNotice k) := fun _ hp => nomatch hp
theorem distancePulseEnd (n : LineId) : Statement (.distancePulseEnd n) := fun _ hp => nomatch hp
theorem trackNoticeAtLine (n : LineId) : Statement (.trackNoticeAtLine n) := fun _ hp => nomatch hp
theorem timePulseEnd (n : LineId) : Statement (.timePulseEnd n) := fun _ hp => nomatch hp
theorem maxOnExpiry (n : LineId) : Statement (.maxOnExpiry n) := fun _ hp => nomatch hp
theorem holdoffExpiry (n : LineId) : Statement (.holdoffExpiry n) := fun _ hp => nomatch hp
theorem inhibitAssertion : Statement .inhibitAssertion := fun _ hp => nomatch hp
theorem inhibitRelease : Statement .inhibitRelease := fun _ hp => nomatch hp
theorem abortByInhibit : Statement .abortByInhibit := fun _ hp => nomatch hp
theorem senseEvent (n : LineId) (c : SenseCond) : Statement (.senseEvent n c) := fun _ hp => nomatch hp
theorem forcing (n : LineId) : Statement (.forcing n) := fun _ hp => nomatch hp
theorem driveViewNotice (n : LineId) : Statement (.driveViewNotice n) := fun _ hp => nomatch hp
theorem blankingExpiry (n : LineId) : Statement (.blankingExpiry n) := fun _ hp => nomatch hp
theorem periodTimerExpiry : Statement .periodTimerExpiry := fun _ hp => nomatch hp
theorem probeStart (n : LineId) : Statement (.probeStart n) := fun _ hp => nomatch hp
theorem probeTimerExpiry : Statement .probeTimerExpiry := fun _ hp => nomatch hp
theorem abandonment (n : LineId) : Statement (.abandonment n) := fun _ hp => nomatch hp
theorem receivedByte (l : LinkId) (b : Byte) : Statement (.receivedByte l b) := fun _ hp => nomatch hp
theorem cs1nFall : Statement .cs1nFall := fun _ hp => nomatch hp

end Sys2Proof.Laws.Framed
end

