-- ==== Sys2Proof/Laws/Settle.lean ====
section
/-! SUPPORT. What the taking of the notices of a track before a command can do: it leaves the tracks, the links and the queues as they
are, and nothing on its way (R62, log 3, log 4). -/

namespace Sys2Proof.Machine

/-- `t` differs from `s` only in what the CSU, a mark unit and the lines hold, and in what they hand on. -/
structure Beside (s t : State) : Prop where
  tracks : t.tracks = s.tracks
  links : t.links = s.links
  queues : t.queues = s.queues
  cfg : ∀ n : LineId, t.lines[n].cfg = s.lines[n].cfg
  toCsu : t.transit.toCsu = s.transit.toCsu
  toMark : t.transit.toMark = s.transit.toMark
  toLine : t.transit.toLine = s.transit.toLine

theorem Beside.refl (s : State) : Beside s s := ⟨rfl, rfl, rfl, fun _ => rfl, rfl, rfl, rfl⟩

theorem Beside.trans {s t u : State} (h : Beside s t) (h' : Beside t u) : Beside s u :=
  ⟨h'.tracks.trans h.tracks, h'.links.trans h.links, h'.queues.trans h.queues, fun n => (h'.cfg n).trans (h.cfg n),
    h'.toCsu.trans h.toCsu, h'.toMark.trans h.toMark, h'.toLine.trans h.toLine⟩

/-- A fold of steps that each stay beside. -/
theorem Beside.foldl {α : Type} {f : State → α → State} (hf : ∀ s a, Beside s (f s a)) (as : List α) (s : State) :
    Beside s (as.foldl f s) := by
  induction as generalizing s with
  | nil => exact .refl s
  | cons a as ih => exact (hf s a).trans (ih _)

variable (s : State) (k : TrackId) (n : LineId)

theorem raiseRouted_beside (dest : Option LinkId) (r : Report) : Beside s (raiseRouted dest r s) := by
  cases dest <;> exact ⟨rfl, rfl, rfl, fun _ => rfl, rfl, rfl, rfl⟩

theorem tellLsv_beside (m : LoadNotice) : Beside s (tellLsv n m s) := ⟨rfl, rfl, rfl, fun _ => rfl, rfl, rfl, rfl⟩

theorem setCsu_beside {t : State} (c : Csu) (h : t = { s with csu := c }) : Beside s t := by
  subst h; exact ⟨rfl, rfl, rfl, fun _ => rfl, rfl, rfl, rfl⟩

theorem setLine_beside (u : Line) (h : u.cfg = s.lines[n].cfg) : Beside s (setLine n u s) := by
  refine ⟨rfl, rfl, rfl, fun m => ?_, rfl, rfl, rfl⟩
  by_cases e : n = m
  · subst e; simpa using h
  · simp [Fin.val_ne_of_ne e]

/-! ### Lines -/

theorem endPulse_beside : Beside s (endPulse n s) := by
  unfold endPulse
  split
  · refine (setLine_beside s n _ ?_).trans (tellLsv_beside _ n _)
    split <;> rfl
  · exact .refl s

theorem truncatePulse_beside (reason : Truncation) : Beside s (truncatePulse n reason s) :=
  (raiseRouted_beside s _ _).trans (endPulse_beside _ n)

/-- What a line does at a firing request (Table 4-3). -/
theorem answerFiring_beside (e : EvalInput) (r : FiringRequest) : Beside s (answerFiring e r s).2 := by
  have hb : ∀ p, Beside s (beginPulse r.line p s) := fun p => by
    unfold beginPulse
    dsimp only
    split
    · exact (tellLsv_beside s _ _).trans (Beside.trans (setLine_beside _ _ _ (by rfl)) (tellLsv_beside _ _ _))
    · exact Beside.trans (setLine_beside _ _ _ (by rfl)) (tellLsv_beside _ _ _)
  have hr : ∀ p, Beside s (retrigger r.line p s) := fun p => setLine_beside _ _ _ rfl
  unfold answerFiring
  repeat' split
  all_goals first | exact .refl s | exact hb _ | exact hr _

theorem answerFiring_csu (e : EvalInput) (r : FiringRequest) : (answerFiring e r s).2.csu = s.csu := by
  unfold answerFiring beginPulse retrigger
  repeat' split
  all_goals rfl

/-- What a line does at a notice of its track unit (R108, R110). -/
theorem takeLineNotice_beside (m : LineNotice) : Beside s (takeLineNotice n m s) := by
  unfold takeLineNotice testDistanceEnd takeTruncation
  repeat' split
  all_goals first | exact .refl s | exact endPulse_beside s n | exact truncatePulse_beside s n _

theorem endPulse_csu : (endPulse n s).csu = s.csu := by unfold endPulse; split <;> rfl

theorem takeLineNotice_csu (m : LineNotice) : (takeLineNotice n m s).csu = s.csu := by
  unfold takeLineNotice testDistanceEnd takeTruncation truncatePulse raiseLine
  repeat' split
  all_goals simp [endPulse_csu]

/-! ### The Cue Schedule Unit -/

theorem raiseOutcome_beside (level : Notify) (o : OutcomeReport) : Beside s (raiseOutcome level o s) := by
  unfold raiseOutcome; split
  · exact raiseRouted_beside s _ _
  · exact .refl s

theorem raiseOutcome_csu (level : Notify) (o : OutcomeReport) : (raiseOutcome level o s).csu = s.csu := by
  rw [raiseOutcome_eq, told_csu]

theorem readyStamp_beside : Beside s (readyStamp s) := by
  unfold readyStamp; split
  · exact setCsu_beside s _ rfl
  · exact .refl s

theorem insertRecord_beside (c : Cue) : Beside s (insertRecord k c s) :=
  (readyStamp_beside s).trans (setCsu_beside _ _ rfl)

theorem completeResolution_beside (e : EvalInput) (c : Cue) (rest : List Cue) (r : CueResult) :
    Beside s (completeResolution k e c rest r s) := by
  unfold completeResolution applyResolution
  refine Beside.trans ?_ (raiseOutcome_beside _ _ _)
  refine (setCsu_beside s _ rfl : Beside s (setSchedule k rest s)).trans ?_
  split
  · exact insertRecord_beside _ _ _
  · exact .refl _
  · exact .refl _

theorem resolveHeads_beside (fuel : Nat) (e : EvalInput) : Beside s (resolveHeads fuel k e s) := by
  induction fuel generalizing s with
  | zero => exact setCsu_beside s _ rfl
  | succ fuel ih =>
    unfold resolveHeads
    repeat' split
    · exact setCsu_beside s _ rfl
    · exact (completeResolution_beside s k e _ _ _).trans (ih _)
    · exact setCsu_beside s _ rfl
    · exact setCsu_beside s _ rfl

theorem takeFiringRequest_beside : Beside s (takeFiringRequest s) := by
  unfold takeFiringRequest
  repeat' split
  · exact (answerFiring_beside s _ _).trans ((completeResolution_beside _ _ _ _ _ _).trans (resolveHeads_beside _ _ _ _))
  · exact setCsu_beside s _ rfl
  · exact .refl s

theorem finishLoop_beside (fuel : Nat) : Beside s (finishLoop fuel s) := by
  induction fuel generalizing s with
  | zero => exact .refl s
  | succ fuel ih =>
    unfold finishLoop; split
    · exact .refl s
    · exact (takeFiringRequest_beside s).trans (ih _)

/-- What the completion of an evaluation event leaves as it is (R62, log 3). -/
theorem finishEvaluation_beside : Beside s (finishEvaluation s) := by
  unfold finishEvaluation; split
  · exact finishLoop_beside s _
  · exact .refl s

/-- What the taking of a notice by the CSU leaves as it is. -/
theorem takeCsuNotice_beside (m : CsuNotice) : Beside s (takeCsuNotice k s m) := by
  have hr : ∀ r x t, Beside t (removeReached k r x t) := fun r x t =>
    (setCsu_beside t _ rfl : Beside t (setSchedule k _ t)).trans
      (Beside.foldl (fun u c => raiseOutcome_beside u _ _) _ _)
  cases m with
  | change e =>
    show Beside s (takeChange k e s)
    unfold takeChange
    refine (setCsu_beside s _ rfl : Beside s (setTaken k e.pos s)).trans ?_
    dsimp only
    split
    · exact resolveHeads_beside _ _ _ _
    · exact .refl _
  | freeze => exact setCsu_beside s _ rfl
  | resume x =>
    exact (setCsu_beside s _ rfl : Beside s (setTaken k x s)).trans ((hr _ _ _).trans (setCsu_beside _ _ rfl))
  | discontinuity x => exact (setCsu_beside s _ rfl : Beside s (setTaken k x s)).trans (hr _ _ _)

/-! ### The end of an evaluation event -/

/-- The resolutions that the records of a schedule can still see. -/
def load (cs : List Cue) : Nat := (cs.map fun c => c.remaining + 1).sum

theorem firingsLeft_eq (cs : List Cue) : firingsLeft cs = load cs + 1 := by
  have : ∀ m, cs.foldl (fun n c => n + c.remaining + 1) m = m + load cs := by
    induction cs with
    | nil => intro m; rfl
    | cons c cs ih => intro m; rw [List.foldl_cons, ih]; simp only [load, List.map_cons, List.sum_cons]; omega
  rw [firingsLeft, this]; omega

theorem load_insertCue (t : Travel) (c : Cue) (cs : List Cue) : load (insertCue t c cs) = load cs + c.remaining + 1 := by
  induction cs with
  | nil => simp [insertCue, load]
  | cons d ds ih =>
    unfold insertCue; split
    · simp only [load, List.map_cons, List.sum_cons]; omega
    · simp only [load, List.map_cons, List.sum_cons] at ih ⊢; omega

theorem load_restamped (m : Nat) (cs : List Cue) : load (renumberFrom m cs) = load cs := by
  induction cs generalizing m with
  | nil => rfl
  | cons c cs ih => simp only [renumberFrom, load, List.map_cons, List.sum_cons] at ih ⊢; rw [ih]; rfl

theorem load_readyStamp : load (readyStamp s).csu.schedules[k] = load s.csu.schedules[k] := by
  unfold readyStamp; split
  · simp only [renumber, setStamp_csu, setSchedule_csu]
    fin_cases k <;> simp [load_restamped]
  · rfl

/-- A resolution uses up one of the resolutions left (R70, R71). -/
theorem load_completeResolution (e : EvalInput) (c : Cue) (rest : List Cue) (r : CueResult) :
    load (completeResolution k e c rest r s).csu.schedules[k] + 1 ≤ load (c :: rest) := by
  have hc : load (c :: rest) = c.remaining + 1 + load rest := by simp [load]
  have h0 : load (setSchedule k rest s).csu.schedules[k] = load rest := by simp
  obtain ⟨a, ha⟩ : ∃ a, afterResolution e.travel c = a := ⟨_, rfl⟩
  have h1 : (completeResolution k e c rest r s).csu = (applyResolution k a (setSchedule k rest s)).csu := by
    rw [completeResolution, raiseOutcome_csu, ha]
  rw [h1, hc]
  cases a with
  | reinserted d m =>
    have hd : d.remaining + 1 ≤ c.remaining := by
      revert ha; unfold afterResolution
      repeat' split
      all_goals simp_all
      rintro rfl -; simp only [Cue.remaining, advanceCue, *]; omega
    have hs : (insertRecord k d (setSchedule k rest s)).csu.schedules[k] =
        insertCue (readyStamp (setSchedule k rest s)).tracks[k].cfg.travel
          { d with stamp := (readyStamp (setSchedule k rest s)).csu.stamp }
          (readyStamp (setSchedule k rest s)).csu.schedules[k] := by simp [insertRecord]
    simp only [applyResolution, hs, load_insertCue, load_readyStamp, h0]
    simp only [Cue.remaining] at hd ⊢; omega
  | rangeEnd m => simp only [applyResolution, h0]; omega
  | freed => simp only [applyResolution, h0]; omega

/-- The loop of an event ends it, or asks a line with no more resolutions left than before (R62, R68). -/
theorem resolveHeads_ends (fuel : Nat) (e : EvalInput) :
    (resolveHeads fuel k e s).csu.evaluation = none ∨
      (∃ r, (resolveHeads fuel k e s).csu.evaluation = some ⟨k, e, r⟩) ∧
        load (resolveHeads fuel k e s).csu.schedules[k] ≤ load s.csu.schedules[k] := by
  induction fuel generalizing s with
  | zero => exact .inl rfl
  | succ fuel ih =>
    cases hs : s.csu.schedules[k] with
    | nil => exact .inl (by simp only [resolveHeads, hs]; rfl)
    | cons c rest =>
      by_cases hr : reaches e.travel e.pos c.effective = true
      · obtain hd | ⟨r, hd⟩ := Option.eq_none_or_eq_some (scheduleDecision s e c)
        · have h : resolveHeads (fuel + 1) k e s = setEvaluation (some ⟨k, e, requestFor s c⟩) s := by
            simp only [resolveHeads, hs, hr, if_true, hd]
          rw [h]
          exact .inr ⟨⟨_, rfl⟩, le_of_eq (congrArg load hs)⟩
        · have h : resolveHeads (fuel + 1) k e s = resolveHeads fuel k e (completeResolution k e c rest r s) := by
            simp only [resolveHeads, hs, hr, if_true, hd]
          rw [h]
          rcases ih (completeResolution k e c rest r s) with h | ⟨h, h'⟩
          · exact .inl h
          · have := load_completeResolution s k e c rest r
            exact .inr ⟨h, by omega⟩
      · exact .inl (by simp only [resolveHeads, hs, hr]; rfl)

theorem finishLoop_ends (fuel : Nat) (v : Evaluation) (h : s.csu.evaluation = some v)
    (hf : load s.csu.schedules[v.track] < fuel) : (finishLoop fuel s).csu.evaluation = none := by
  induction fuel generalizing s v with
  | zero => omega
  | succ fuel ih =>
    obtain ⟨k, e, r⟩ := v
    simp only [finishLoop, h, reduceCtorEq, if_false, takeFiringRequest]
    have ends : ∀ u : State, u.csu.evaluation = none → (finishLoop fuel u).csu.evaluation = none := by
      intro u hu; cases fuel <;> simp [finishLoop, hu]
    split
    · rename_i c rest hs
      have hl := load_completeResolution (answerFiring e r s).2 k e c rest (answerFiring e r s).1
      simp only [hs] at hf
      rcases resolveHeads_ends (completeResolution k e c rest (answerFiring e r s).1 (answerFiring e r s).2) k _ e with
        h1 | ⟨⟨q, h1⟩, h2⟩
      · exact ends _ h1
      · exact ih _ _ h1 (by simp only [runEvaluation] at h2 ⊢; omega)
    · exact ends _ rfl

/-- After its completion no evaluation event is in progress (R62, log 3). -/
theorem finishEvaluation_ends : (finishEvaluation s).csu.evaluation = none := by
  unfold finishEvaluation; split
  · rename_i v h; exact finishLoop_ends s _ v h (by rw [firingsLeft_eq]; omega)
  · assumption

/-! ### Every notice of a track (log 4) -/

/-- The CSU has taken what its track unit told it, with every event at its end. -/
theorem takeAllCsuNotices_ends : (takeAllCsuNotices k s).csu.evaluation = none := by
  have h : ∀ (ns : List CsuNotice) (t : State), t.csu.evaluation = none →
      (ns.foldl (fun t m => finishEvaluation (takeCsuNotice k t m)) t).csu.evaluation = none := by
    intro ns
    induction ns with
    | nil => exact fun t ht => ht
    | cons m ns ih => exact fun t _ => ih _ (finishEvaluation_ends _)
  exact h _ _ (finishEvaluation_ends s)

theorem takeAllCsuNotices_beside : Beside (putToCsu k [] s) (takeAllCsuNotices k s) := by
  obtain ⟨h1, h2, h3, h4, h5, h6, h7⟩ := finishEvaluation_beside s
  have h0 : Beside (putToCsu k [] s) (putToCsu k [] (finishEvaluation s)) :=
    ⟨h1, h2, h3, h4, by simp [putToCsu, h5], h6, h7⟩
  exact h0.trans (Beside.foldl (fun t m => (takeCsuNotice_beside t k m).trans (finishEvaluation_beside _)) _ _)

theorem spawnProgram_beside (x : Int) (seq : BitVec 16) : Beside s (spawnProgram k x seq s) := by
  refine Beside.foldl (fun t e => ?_) _ _
  split
  · exact ⟨rfl, rfl, rfl, fun _ => rfl, rfl, rfl, rfl⟩
  · exact .refl t

theorem setMark_beside (m : Mark) : Beside s (setMark k m s) := ⟨rfl, rfl, rfl, fun _ => rfl, rfl, rfl, rfl⟩

theorem loseMark_beside (cause : LossCause) : Beside s (loseMark k cause s) :=
  (setMark_beside s k _).trans (raiseRouted_beside _ _ _)

theorem watchLoop_beside (fuel : Nat) (x : Int) : Beside s (watchLoop fuel k x s) := by
  induction fuel generalizing s with
  | zero => exact .refl s
  | succ fuel ih =>
    unfold watchLoop
    repeat' split
    · exact ((setMark_beside s k _).trans ((raiseRouted_beside _ _ _).trans (spawnProgram_beside _ k _ _))).trans (ih _)
    · exact loseMark_beside s k _
    · exact .refl s

/-- What the taking of a notice by MUk leaves as it is. -/
theorem takeMarkNotice_beside (m : MarkNotice) : Beside s (takeMarkNotice k s m) := by
  have hl : ∀ cause, Beside s (takeMarkLoss k cause s) := fun cause => by
    unfold takeMarkLoss
    split
    · exact loseMark_beside s k _
    · exact loseMark_beside s k _
    · exact .refl s
    · exact .refl s
  cases m with
  | change x =>
    have : Beside s (endBlanking k x s) := by
      unfold endBlanking; split
      · exact setMark_beside s k _
      · exact .refl s
    exact this.trans (watchLoop_beside _ k _ _)
  | fault => exact hl _
  | discontinuity => exact hl _

theorem spawnProgram_csu (x : Int) (seq : BitVec 16) : (spawnProgram k x seq s).csu = s.csu := by
  have : ∀ (es : List EntryId) (t : State), (es.foldl (fun t e => if s.marks[k].program[e].enabled then
      tellSpawn k ⟨e, seq, x, s.marks[k].program[e]⟩ t else t) t).csu = t.csu := by
    intro es
    induction es with
    | nil => exact fun t => rfl
    | cons e es ih => intro t; rw [List.foldl_cons, ih]; split <;> rfl
  exact this _ _

theorem watchLoop_csu (fuel : Nat) (x : Int) : (watchLoop fuel k x s).csu = s.csu := by
  induction fuel generalizing s with
  | zero => rfl
  | succ fuel ih =>
    unfold watchLoop
    repeat' split
    · rw [ih, substitute, spawnProgram_csu, raiseTrack, raiseRouted_csu, setMark_csu]
    · rw [loseMark, raiseTrack, raiseRouted_csu, setMark_csu]
    · rfl

theorem takeMarkNotice_csu (m : MarkNotice) : (takeMarkNotice k s m).csu = s.csu := by
  have hl : ∀ cause, (takeMarkLoss k cause s).csu = s.csu := fun cause => by
    unfold takeMarkLoss loseMark raiseTrack; split <;> simp
  cases m with
  | change x =>
    have : (endBlanking k x s).csu = s.csu := by unfold endBlanking; split <;> rfl
    exact (watchLoop_csu _ k _ _).trans this
  | fault => exact hl _
  | discontinuity => exact hl _

/-- MUk has taken what its track unit told it; the CSU is as it was. -/
theorem takeAllMarkNotices_beside : Beside (putToMark k [] s) (takeAllMarkNotices k s) ∧
    (takeAllMarkNotices k s).csu = s.csu := by
  have h : ∀ (ns : List MarkNotice) (t : State), t.transit.toMark[k] = ns →
      Beside (putToMark k [] t) (takeMarkNotices k ns t) ∧ (takeMarkNotices k ns t).csu = t.csu := by
    intro ns
    induction ns with
    | nil => intro t ht; rw [putToMark_nil t k ht]; exact ⟨.refl t, rfl⟩
    | cons m ns ih =>
      intro t _
      obtain ⟨h1, h2, h3, h4, h5, h6, h7⟩ := takeMarkNotice_beside (putToMark k ns t) k m
      obtain ⟨b, c⟩ := ih (takeMarkNotice k (putToMark k ns t) m) (by rw [h6]; simp [putToMark])
      have h0 : Beside (putToMark k [] t) (putToMark k [] (takeMarkNotice k (putToMark k ns t) m)) :=
        ⟨h1, h2, h3, h4, h5, by
          show (takeMarkNotice k (putToMark k ns t) m).transit.toMark.set k [] = t.transit.toMark.set k []
          rw [h6]; simp [putToMark], h7⟩
      exact ⟨h0.trans b, c.trans (takeMarkNotice_csu _ k m)⟩
  exact h _ s rfl

/-- Line n has taken what its track unit told it; the CSU is as it was. -/
theorem takeAllLineNotices_beside : Beside (putToLine n [] s) (takeAllLineNotices n s) ∧
    (takeAllLineNotices n s).csu = s.csu := by
  refine ⟨Beside.foldl (fun t m => takeLineNotice_beside t n m) _ _, ?_⟩
  have : ∀ (ns : List LineNotice) (t : State), (ns.foldl (fun t m => takeLineNotice n m t) t).csu = t.csu := by
    intro ns
    induction ns with
    | nil => exact fun t => rfl
    | cons m ns ih => intro t; rw [List.foldl_cons, ih, takeLineNotice_csu]
  exact this _ _

/-- Before a REBASE everything the track told is taken; the tracks, the links and the queues are as they were (R18, log 3, log 4). -/
theorem settleAllNotices_taken : AllTaken k (settleAllNotices k s) ∧ (settleAllNotices k s).tracks = s.tracks ∧
    (settleAllNotices k s).links = s.links ∧ (settleAllNotices k s).queues = s.queues := by
  obtain ⟨a1, a2, a3, -, a5, -, -⟩ := takeAllCsuNotices_beside s k
  obtain ⟨⟨b1, b2, b3, -, b5, b6, -⟩, b8⟩ := takeAllMarkNotices_beside (takeAllCsuNotices k s) k
  have h : ∀ (ns : List LineId) (t u : State),
      ns.foldl (fun t n => if t.lines[n].cfg.track = k then takeAllLineNotices n t else t) t = u →
      u.csu = t.csu ∧ u.tracks = t.tracks ∧ u.links = t.links ∧ u.queues = t.queues ∧ u.transit.toCsu = t.transit.toCsu ∧
        u.transit.toMark = t.transit.toMark ∧ (∀ n : LineId, u.lines[n].cfg = t.lines[n].cfg) ∧
        ∀ n : LineId, n ∈ ns ∨ t.transit.toLine[n] = [] → t.lines[n].cfg.track = k → u.transit.toLine[n] = [] := by
    intro ns
    induction ns with
    | nil => rintro t _ rfl; exact ⟨rfl, rfl, rfl, rfl, rfl, rfl, fun _ => rfl, fun n h _ => by simpa using h⟩
    | cons m ns ih =>
      intro t u hu
      obtain ⟨⟨c1, c2, c3, c4, c5, c6, c7⟩, c8⟩ := takeAllLineNotices_beside t m
      rw [List.foldl_cons] at hu
      by_cases hm : t.lines[m].cfg.track = k
      · rw [if_pos hm] at hu
        obtain ⟨i1, i2, i3, i4, i5, i6, i7, i8⟩ := ih _ _ hu
        refine ⟨i1.trans c8, i2.trans c1, i3.trans c2, i4.trans c3, i5.trans c5, i6.trans c6,
          fun n => (i7 n).trans (c4 n), fun n hn hk => i8 n ?_ (by rw [c4 n]; exact hk)⟩
        rw [c7]
        by_cases e : m = n
        · subst e; exact .inr (by simp [putToLine])
        · rcases hn with hn | hn
          · exact .inl ((List.mem_cons.mp hn).resolve_left (Ne.symm e))
          · exact .inr (by simpa [putToLine, Fin.val_ne_of_ne e] using hn)
      · rw [if_neg hm] at hu
        obtain ⟨i1, i2, i3, i4, i5, i6, i7, i8⟩ := ih _ _ hu
        refine ⟨i1, i2, i3, i4, i5, i6, i7, fun n hn hk => i8 n ?_ hk⟩
        rcases hn with hn | hn
        · rcases List.mem_cons.mp hn with rfl | hn
          · exact absurd hk hm
          · exact .inl hn
        · exact .inr hn
  obtain ⟨u, hu⟩ : ∃ u, settleAllNotices k s = u := ⟨_, rfl⟩
  obtain ⟨i1, i2, i3, i4, i5, i6, i7, i8⟩ := h allLines (settleNotices k s) u hu
  rw [hu]
  refine ⟨⟨?_, ?_, ?_, ?_⟩, i2.trans (b1.trans a1),
    i3.trans (b2.trans a2), i4.trans (b3.trans a3)⟩
  · rw [i1.trans b8]; exact takeAllCsuNotices_ends s k
  · rw [i5.trans (b5.trans a5)]; simp [putToCsu]
  · rw [i6.trans b6]; simp [putToMark]
  · intro n hn
    exact i8 n (.inl (mem_allLines n)) ((congrArg LineConfig.track (i7 n)).symm.trans hn)

end Sys2Proof.Machine
end

