-- ==== Sys2Proof/Tests/Slice0.lean ====
section
/-! SUPPORT. Tests of single steps against the worked examples of the spec, ill-formed commands that the check refuses, and for each
statement with hypotheses a concrete state and operands that meet them (a theorem `witness_<Name>`). -/

namespace Sys2Proof.Tests

-- One test at a time: each `decide +kernel` waits for the kernel, and many at once would hold a thread each.
set_option Elab.async false

open Sys2Proof Sys2Proof.Machine

/-! ### Helpers -/

/-- The part after reset with this track unit as T0. -/
def withT0 (t : Track) : State := setTrack 0 t State.reset

/-- T0 in a state, with this source. -/
def unit0 (x : TrackState) (source : Source) : Track :=
  { Track.reset with
    state := x, cfg := { TrackConfig.reset with source := source }
    window := if x = .disabled then none else some ⟨0, 10⟩ }

/-- The part after reset with T0 in a state, with this source. -/
def inState (x : TrackState) (source : Source) : State := withT0 (unit0 x source)

/-- What a step leaves, the state itself where the step does not go on. -/
def after (i : Instr) (s : State) : State :=
  match exec i s with
  | .next t => t
  | _ => s

/-- A HOST cue on a line. -/
def cue (id : BitVec 16) (line : LineId) (e : Int) : Cue :=
  ⟨.host id, line, e, e, none, none, none, none, 0, .always, 0⟩

/-- A line that is enabled and in a state. -/
def lineIn (x : LineState) : Line := { Line.reset with cfg := { Line.reset.cfg with enabled := true }, state := x }

/-- An active pulse with this end. -/
def pulse (e : PulseEnd) : Pulse := ⟨.cue, e, 0, false, 5⟩

/-- A state whose links are as after reset is ready for a command with any SEQ. -/
theorem ready_of_links {s : State} (h : s.links = State.reset.links) (l : LinkId) (seq : Byte) : Ready l seq s := by
  have e : ∀ m, linkOn s m = Link.reset := by
    intro m; rw [linkOn, h]; cases m <;> rfl
  refine ⟨?_, ?_, ?_⟩ <;> rw [e] <;> simp [Link.reset]

/-- Both links of the part after reset are ready. -/
theorem witness_ready : ∀ (l : LinkId) (seq : Byte), Ready l seq State.reset := ready_of_links rfl

/-! ### Ill-formed commands -/

/-- Each check of Instr.wellFormed refuses an ill-formed command: a payload of 201 bytes, a payload of none, a listed code. -/
theorem test_wellFormed_refuses :
    Instr.wellFormed (.ping .link0 0 (List.replicate 200 0)) = false ∧
    Instr.wellFormed (.querySweep .link1 0 (List.replicate 200 0)) = false ∧
    Instr.wellFormed (.unknownCommand .link0 0 0x57 []) = false ∧
    Instr.wellFormed (.unknownCommand .link0 0 0x58 (List.replicate 200 0)) = false ∧
    Instr.wellFormed (.duplicate .link0 0 []) = false ∧
    Instr.wellFormed (.duplicate .link0 0 (List.replicate 201 0)) = false := by decide +kernel

/-- The largest payloads are well formed. -/
theorem test_wellFormed_accepts :
    Instr.wellFormed (.ping .link0 0 (List.replicate 199 0)) = true ∧
    Instr.wellFormed (.duplicate .link1 255 (List.replicate 200 0)) = true ∧
    Instr.wellFormed (.unknownCommand .link0 0 0x58 []) = true := by decide +kernel

/-! ### Worked examples of the spec -/

/-- The check value of 11: the bytes 31H to 39H give 29B1H. -/
theorem test_crc_check_value : crc [0x31, 0x32, 0x33, 0x34, 0x35, 0x36, 0x37, 0x38, 0x39] = 0x29B1 := by decide +kernel

/-- R34, first update of the example: the sum -1,234,567 delivers -12 counts and leaves -34,567. -/
theorem test_update_truncates :
    let s := after (.updateIntervalExpiry 0) (withT0 { unit0 .running .sim with simVel := -1234567, updateTimer := some 0 })
    s.tracks[0].pos = -12 ∧ s.tracks[0].remainder = -34567 := by decide +kernel

/-- T1 of 2.6 as T0, before a transfer. -/
def sensor (rPrev : Option Nat) (pos : Int) (rejects : Nat) : State :=
  withT0 { unit0 .running .sampled with
    cfg := { TrackConfig.reset with source := .sampled, sampleWidth := 12 }, pos := pos, rPrev := rPrev
    rejects := rejects, transfer := true }

/-- 2.6, transfer 2: 5 after 4090 is a delta of +11 across the wrap point (5 has two ones: even parity bit 0). -/
theorem test_unwrap_across_the_wrap_point :
    let s := after (.transferCompletion 0 true 5 false false) (sensor (some 4090) 1000 0)
    s.tracks[0].pos = 1011 ∧ s.tracks[0].rPrev = some 5 := by decide +kernel

/-- 2.6, transfer 9: 2070 after 20 is a delta of -2046, the third reject in a row, and T1 enters FAULT with cause SAMPLE. -/
theorem test_third_reject_faults :
    let s := after (.transferCompletion 0 true 2070 false false) (sensor (some 20) 1026 2)
    s.tracks[0].state = .fault ∧ s.tracks[0].cause = .sample ∧ s.tracks[0].pos = 1026 := by decide +kernel

/-- T3 of 4.8 while the firing request of cue 1 waits at L8. -/
def simulated : State :=
  let cs : List Cue :=
    [cue 1 8 20010, { cue 2 8 20030 with tolerance := some 10, notify := .onFail },
     { cue 3 9 20040 with profile := some 2, notify := .onFail }, { cue 4 8 20045 with repetition := some ⟨20, 2⟩ },
     { cue 5 9 20100 with notify := .silent }]
  let s := setTrack 3 { unit0 .running .sim with pos := 20050, vel := 5000000 } State.reset
  let s := putProfile 2 { Profile.reset with minSpeed := 6000000 } (putProfile 1 { Profile.reset with width := 100 } s)
  let l8 : Line := { lineIn .off with cfg := { (lineIn .off).cfg with track := 3, profile := 1 } }
  let l9 : Line := { lineIn .off with cfg := { (lineIn .off).cfg with track := 3 } }
  { setLine 9 l9 (setLine 8 l8 s) with
    csu := { s.csu with
      schedules := s.csu.schedules.set 3 cs, stamp := 500
      evaluation := some ⟨3, ⟨20050, .forward, .running, 5000000⟩, ⟨8, 1, false, none⟩⟩ } }

/-- 4.8: L8 answers FIRED and is ON for 100 us; cue 2 is then LATE, cue 3 SLOW, and cue 4 asks L8 in its turn. -/
theorem test_firing_answer_goes_on_with_the_event :
    let s := after (.firingRequest 8) simulated
    s.lines[8].pulse.map Pulse.finish = some (.time 100) ∧
    s.csu.schedules[3].map Cue.key = [.host 4, .host 5] ∧ s.csu.evaluation.isSome = true ∧
    s.transit.toQueue.on0.length = 3 := by decide +kernel

/-- 4.8: cue 4 meets L8 ON under REJECT, and is re-inserted at 20,065 with stamp 500, remaining 1 and index 1. -/
theorem test_collided_repeat_is_reinserted :
    let s := after (.firingRequest 8) (after (.firingRequest 8) simulated)
    s.csu.schedules[3].map (fun c => (c.key, c.effective, c.index, c.remaining)) =
      [(.host 4, 20065, 1, 1), (.host 5, 20100, 0, 0)] ∧ s.csu.stamp = 501 ∧ s.csu.evaluation = none := by decide +kernel

/-- MU0 of 5.11 with a last mark, a count and a position change on its way. -/
def marker (last : Int) (count : Nat) (x : Int) : State :=
  let p := (Vector.replicate 8 Template.reset).set 0 ⟨true, 300, 1, none, none, none, .onFail⟩
  let s := setMark 0 { Mark.reset with
    state := .armed, last := last, valid := true, seq := 2, substitutions := count
    cfg := ⟨.rising, 200, 1000, 50, 2, true⟩, program := p } (withT0 { unit0 .running .quad with pos := x })
  putToMark 0 [.change x] s

/-- 5.11, position 7,060: a substitute at 7,010, BLANKED, with its spawn request. -/
theorem test_substituted_mark :
    let s := after (.markPositionChange 0) (marker 6010 0 7060)
    s.marks[0].state = .blanked ∧ s.marks[0].seq = 3 ∧ s.marks[0].last = 7010 ∧ s.marks[0].substitutions = 1 ∧
    (s.transit.spawns[0]).map Spawn.pos = [7010] := by decide +kernel

/-- 5.11, position 9,060: the count has reached the limit, and the unit is LOST without a last mark. -/
theorem test_missing_mark_at_the_limit :
    let s := after (.markPositionChange 0) (marker 8010 2 9060)
    s.marks[0].state = .lost ∧ s.marks[0].valid = false ∧ s.marks[0].loss = .missing := by decide +kernel

/-- 9.7: the loss of LINK0 releases T1 FLUSH, L4 KEEP, L6 FLUSH and L9 FLUSH in resource order. -/
def owning : State :=
  let own := fun p => (⟨some .link0, p⟩ : Claim)
  let s := setClaim 1 (own .flush) (setClaim 8 (own .keep) (setClaim 10 (own .flush) (setClaim 13 (own .flush) State.reset)))
  setLink .link0 { Link.reset with state := .up, timeout := 200, supervision := some 200000 } s

theorem test_loss_releases_in_resource_order :
    let s := after (.linkLoss .link0) owning
    s.transit.csuLoss = [.track 1, .line 6, .line 9] ∧ (∀ r : Fin 20, s.claims[r] = Claim.free) ∧
    s.transit.toQueue.on1 = [.linkLost .link0] ∧ s.transit.lineLoss[4] = 0 := by decide +kernel

/-- 7.7: the visits of L3 DISABLED, L4 masked and L5 ON after L2, until L6 takes a probe start. -/
theorem test_sweep_visits :
    let s := setLine 6 (lineIn .off) (setLine 5 (lineIn .on) (setLine 4 (lineIn .off) State.reset))
    let s := setLoad 4 { Load.reset .normal with masked := ⟨true, false, false⟩ } s
    let s := setSweep { Sweep.reset with running := true, current := some 2, probeTimer := some 20 } s
    let t := after .probeTimerExpiry (setLine 2 (lineIn .test) (setLoad 2 { Load.reset .noLoad with view := .probe } s))
    let u := after (.probeStart 5) t
    u.sweep.results.toList.take 7 = [.notRun, .notRun, .openLoad, .notEnabled, .skippedMasked, .skippedBusy, .notRun] ∧
    u.sweep.request = some 6 ∧ u.loads[2].latched.openLoad = true := by decide +kernel

/-- R42: at the last stamp the pending cues are renumbered from 0 before the new record takes the next stamp. -/
theorem test_stamps_are_renumbered :
    let s := inState .running .quad
    let s := { s with csu := { s.csu with schedules := s.csu.schedules.set 0 [cue 7 0 50], stamp := 4294967295 } }
    let t := after (.addCue .link0 0 [0, 0, 0, 8, 0, 60, 0, 0, 0, 0, 0, 0]) s
    t.csu.schedules[0].map (fun c => (c.key, c.stamp)) = [(.host 7, 0), (.host 8, 1)] ∧ t.csu.stamp = 2 := by
  decide +kernel

/-- A PING frame with SEQ 1 and no data, received whole and judged, answers 01H 00H (R144, R153). -/
theorem test_ping_frame :
    let f := frameBytes 0x01 1 [0x01]
    let s := setLink .link0 { Link.reset with receiver := f } State.reset
    let t := after (.ping .link0 1 []) (after (.completeFrame .link0) s)
    (linkOn t .link0).storedReply = some (frameBytes 0x02 1 [0x01, 0x00]) := by decide +kernel

/-! ### Witnesses: the step, the resets and the tracks -/

theorem witness_StepRunsTheFrontCommand :
    ({ State.reset with pending := [.powerOn] } : State).pending = .powerOn :: [] ∧ State.reset.pending = [] := ⟨rfl, rfl⟩

/-- LINK0 with the reply of an accepted RESET sent to its last byte. -/
def resetting : State :=
  setLink .link0 { Link.reset with resetWait := true, outbound := some ⟨.reply, [], 0⟩ } State.reset

/-- R117, R123, R172: with INH high and the stage of L3 STUCK_ON, each queue is handed INHIBIT behind its RESET record, and that of
LINK0, the default report link, LINE_FAULT (their order: log 10). -/
theorem test_reset_reports_what_the_pins_show :
    let t := after .resetn { State.reset with
      pins := { Pins.rest with inhibit := true, sense := Pins.rest.sense.set 3 .stuckOn } }
    t.transit.toQueue = ⟨[.inhibit true, .lineFault 3 .stuck], [.inhibit true]⟩ ∧
    (queueOn t .link0).records = [⟨.reset .pin, 0, .waiting⟩] := by decide +kernel

/-- Each cause of a reset occurs: the hypothesis of the four ResetLeaves statements. -/
theorem witness_ResetsTo :
    ResetsTo .power State.reset (fullReset .power State.reset) ∧ ResetsTo .pin State.reset (fullReset .pin State.reset) ∧
    ResetsTo .command resetting (after (.replySent .link0) resetting) :=
  ⟨rfl, rfl, .link0, .inl ⟨⟨rfl, _, rfl, rfl, rfl⟩, rfl⟩⟩

/-- T0 QUAD with a reference, one count below the highest position. -/
def counting (x : TrackState) : State :=
  withT0 { unit0 x .quad with pos := 140737488355326, reference := some ⟨false, false⟩ }

theorem witness_LegalEdgeCountsOne : ∀ x ∈ [TrackState.settling, .running, .fault],
    (counting x).tracks[0].state ≠ .disabled ∧ (counting x).tracks[0].cfg.source = .quad ∧
    (counting x).tracks[0].reference = some ⟨false, false⟩ ∧ (⟨false, false⟩, ⟨true, false⟩) ∈ upEdges ∧
    (⟨false, true⟩, ⟨false, false⟩) ∈ upEdges ∧ inRange ((counting x).tracks[0].pos + 1) = true ∧
    inRange ((counting x).tracks[0].pos + -1) = true := by decide +kernel

/-- T0 in SETTLING with a settle time set to 0 since, a reference, and a transfer under way. -/
def atOnce (source : Source) : State :=
  withT0 { unit0 .settling source with
    cfg := { TrackConfig.reset with source := source, settleTime := 0 }, reference := some ⟨false, false⟩, transfer := true
    rPrev := some 5 }

theorem witness_IllegalTransitionIsAnError :
    let s := fun x n => withT0 { unit0 x .quad with reference := some ⟨false, false⟩, windowIllegal := n }
    (s .running 1).tracks[0].reference = some ⟨false, false⟩ ∧ countUp 1 < (s .running 1).tracks[0].cfg.errorLimit ∧
    (s .settling 1).tracks[0].state = .settling ∧ 0 < (s .settling 1).tracks[0].cfg.settleTime ∧
    (s .fault 0).tracks[0].state = .fault ∧ (s .running 2).tracks[0].cfg.errorLimit ≤ countUp 2 ∧
    (s .settling 2).tracks[0].state ≠ .fault ∧ (atOnce .quad).tracks[0].state = .settling ∧
    (atOnce .quad).tracks[0].cfg.settleTime = 0 ∧ (atOnce .quad).tracks[0].reference = some ⟨false, false⟩ ∧
    countUp (atOnce .quad).tracks[0].windowIllegal < (atOnce .quad).tracks[0].cfg.errorLimit := by decide +kernel

theorem witness_IndexEdgeCapturesHome :
    (inState .disabled .quad).tracks[0].state = .disabled ∧ (inState .running .sim).tracks[0].cfg.source ≠ .quad ∧
    (inState .running .quad).tracks[0].homeArmed = false ∧
    (withT0 { unit0 .running .quad with homeArmed := true }).tracks[0].homeArmed = true ∧
    (withT0 { unit0 .fault .quad with homeArmed := true }).tracks[0].state = .fault ∧
    (withT0 { unit0 .settling .quad with homeArmed := true }).tracks[0].state ≠ .fault := by decide +kernel

/-- T0 SAMPLED with a transfer under way. -/
def transferring (x : TrackState) (rejects : Nat) : State :=
  withT0 { unit0 x .sampled with transfer := true, rejects := rejects, rPrev := some 5 }

theorem witness_BadFramingIsRejected :
    (transferring .running 1).tracks[0].transfer = true ∧ (transferring .running 1).tracks[0].state ≠ .disabled ∧
    countUp 1 < (transferring .running 1).tracks[0].cfg.errorLimit ∧
    (transferring .settling 1).tracks[0].state = .settling ∧ 0 < (transferring .settling 1).tracks[0].cfg.settleTime ∧
    (transferring .fault 1).tracks[0].state = .fault ∧
    (transferring .running 2).tracks[0].cfg.errorLimit ≤ countUp 2 ∧ (atOnce .sampled).tracks[0].transfer = true ∧
    (atOnce .sampled).tracks[0].state = .settling ∧ (atOnce .sampled).tracks[0].cfg.settleTime = 0 ∧
    (onesBelow (transferring .running 1).tracks[0].cfg.sampleWidth (5 : BitVec 32).toNat + (if true then 1 else 0)) % 2 = 1 := by
  decide +kernel

/-- The jump limit 256 itself is accepted, 257 is not, in RUNNING, in SETTLING with a settle time and without, and at the error
limit; -8388608 is the lowest delta of 24 bits. -/
theorem witness_ValidSampleIsUnwrapped :
    let s := transferring .running 1
    let w := s.tracks[0].cfg.sampleWidth
    1 ≤ w ∧ (onesBelow w (261 : BitVec 32).toNat + (if true then 1 else 0)) % 2 = 0 ∧
    (withT0 { unit0 .running .sampled with transfer := true }).tracks[0].rPrev = none ∧
    s.tracks[0].rPrev = some 5 ∧ ((256 : Int) - ((261 : Int) - 5)) % 2 ^ w = 0 ∧
    (256 : Int).natAbs ≤ s.tracks[0].cfg.jumpLimit ∧ s.tracks[0].cfg.jumpLimit < (257 : Int).natAbs ∧
    countUp s.tracks[0].rejects < s.tracks[0].cfg.errorLimit ∧ inRange (s.tracks[0].pos + 256) = true ∧
    ((257 : Int) - ((262 : Int) - 5)) % 2 ^ w = 0 ∧ (transferring .settling 1).tracks[0].state = .settling ∧
    0 < (transferring .settling 1).tracks[0].cfg.settleTime ∧ (atOnce .sampled).tracks[0].cfg.settleTime = 0 ∧
    (atOnce .sampled).tracks[0].cfg.jumpLimit < (257 : Int).natAbs ∧
    (transferring .running 2).tracks[0].cfg.errorLimit ≤ countUp (transferring .running 2).tracks[0].rejects ∧
    s.tracks[0].cfg.source = .sampled ∧
    (-(2 ^ (w - 1)) : Int) = -8388608 ∧ (transferring .fault 1).tracks[0].state = .fault := by decide +kernel

/-- T0 SIM with its update interval running. -/
def updating (x : TrackState) (v pos : Int) : State :=
  withT0 { unit0 x .sim with simVel := v, pos := pos, updateTimer := some 10 }

theorem witness_SimulationDeliversWholeCounts :
    (updating .running (-199999) 0).tracks[0].updateTimer.isSome = true ∧
    (updating .running (-199999) 0).tracks[0].state ≠ .disabled ∧
    (updating .running (-199999) 0).tracks[0].remainder + (-199999) = -1 * 100000 + -99999 ∧
    (updating .fault 99999 0).tracks[0].remainder + 99999 = 0 * 100000 + 99999 ∧
    inRange ((updating .running 200000 140737488355325).tracks[0].pos + 2) = true := by decide +kernel

/-- A SIM update, a QUAD edge and a sample of 256 counts, each across the high or the low limit. -/
theorem witness_ClampAtTheRangeLimit : ∀ x ∈ [TrackState.settling, .running, .fault],
    inRange (updating x 100000 140737488355327).tracks[0].pos = true ∧
    (140737488355327 : Int) < (updating x 100000 140737488355327).tracks[0].pos + 1 ∧
    inRange (updating x (-100000) (-140737488355328)).tracks[0].pos = true ∧
    (updating x (-100000) (-140737488355328)).tracks[0].pos + -1 < (-140737488355328 : Int) ∧
    (let s := withT0 { unit0 x .quad with pos := 140737488355327, reference := some ⟨false, false⟩ }
     s.tracks[0].state ≠ .disabled ∧ s.tracks[0].reference = some ⟨false, false⟩ ∧ s.tracks[0].cfg.source = .quad ∧
     s.tracks[0].cfg.sense = .normal ∧ (140737488355327 : Int) < s.tracks[0].pos + 1) ∧
    (let s := withT0 { unit0 x .sampled with pos := -140737488355328 + 255, transfer := true, rPrev := some 261 }
     s.tracks[0].state ≠ .disabled ∧ s.tracks[0].rPrev = some 261 ∧ ((-256 : Int) - ((5 : Int) - 261)) % 2 ^ 24 = 0 ∧
     (onesBelow s.tracks[0].cfg.sampleWidth (5 : BitVec 32).toNat + (if false then 1 else 0)) % 2 = 0 ∧
     (-256 : Int).natAbs ≤ s.tracks[0].cfg.jumpLimit ∧ s.tracks[0].pos + -256 < (-140737488355328 : Int)) := by decide +kernel

theorem witness_TimersOfATrackExpire :
    (withT0 { unit0 .running .sampled with sampleTimer := some 250 }).tracks[0].sampleTimer.isSome = true ∧
    (withT0 { unit0 .running .sampled with sampleTimer := some 250 }).tracks[0].cfg.source = .sampled ∧
    (∀ x ∈ [Source.absent, .quad, .sampled, .sim], (inState .disabled x).tracks[0].state = .disabled ∧
      trackSound (inState .disabled x).tracks[0] = true ∧ (inState .disabled x).tracks[0].cfg.source = x) ∧
    (inState .settling .quad).tracks[0].state = .settling := by decide +kernel

/-- 1 count back in 10 ms is -100 counts/s; an overspeed limit of 99 is exceeded, one of 100 is not. -/
theorem witness_WindowEndMeasuresVelocity :
    let s := fun x (n : Nat) =>
      withT0 { unit0 x .quad with pos := -1, cfg := { TrackConfig.reset with source := .quad, overspeed := n } }
    (s .running 99).tracks[0].window = some ⟨0, 10⟩ ∧ (s .running 99).tracks[0].state ≠ .disabled ∧
    ((-1 : Int) - 0) * 1000 ≤ -100 * (10 : Nat) ∧ (-100 - 1 : Int) * (10 : Nat) < (-1 - 0) * 1000 ∧
    (((s .running 99).tracks[0].cfg.overspeed : Int) < |(-100 : Int)|) ∧
    ¬(((s .running 100).tracks[0].cfg.overspeed : Int) < |(-100 : Int)|) ∧ (s .fault 99).tracks[0].state = .fault := by
  decide +kernel

/-! ### Witnesses: the commands of the tracks -/

/-- T0 and T1 to T3 are open to both links, and so are the lines. -/
theorem witness_owners : (∀ k l, trackOwner State.reset k ≠ some (otherLink l)) ∧
    ∀ n l, lineOwner State.reset n ≠ some (otherLink l) := by
  refine ⟨?_, ?_⟩ <;> intro k l <;> cases l <;> revert k <;> decide +kernel

/-- The configuration after reset fits, with 512 cues as well; nine cues do not fit a limit of eight. -/
theorem witness_SetTrackStoresEveryField :
    trackConfigFits TrackConfig.reset ∧ trackConfigFits { TrackConfig.reset with sampleWidth := 12, jumpLimit := 2047 } ∧
    (let s := inState .running .quad
     s.tracks[0].cfg.source ≠ TrackConfig.reset.source ∧ s.tracks[0].state ≠ .disabled ∧ cueCount s 0 ≤ 0) ∧
    (let s := setSchedule 0 [cue 1 0 5] (inState .disabled .quad)
     (0 < cueCount s 0) ∧ s.tracks[0].state = .disabled) ∧
    ((List.replicate 21 (255 : Byte)).length = 21 ∧ ∀ k c, List.replicate 21 (255 : Byte) ≠ setTrackArgs k c) := by
  refine ⟨by simp [trackConfigFits, TrackConfig.reset], by simp [trackConfigFits, TrackConfig.reset], by decide +kernel,
    by decide +kernel, rfl, fun k c h => ?_⟩
  have key : ∀ k : TrackId, (255 : Byte) ≠ indexByte k := by decide
  exact key k (by simpa [setTrackArgs] using congrArg List.head? h)

/-- DISABLED, each enabled state and source NONE occur. -/
theorem witness_EnableTrackStartsSettling :
    (inState .running .quad).tracks[0].state ≠ .disabled ∧ (inState .disabled .absent).tracks[0].cfg.source = .absent ∧
    (inState .disabled .sampled).tracks[0].cfg.source ≠ .absent ∧ (inState .disabled .sim).tracks[0].state = .disabled := by
  decide +kernel

theorem witness_DisableTrackFlushes :
    (inState .disabled .quad).tracks[0].state = .disabled ∧ (inState .fault .quad).tracks[0].state ≠ .disabled ∧
    (inState .fault .quad).csu.evaluation = none ∧ (inState .fault .quad).transit.toCsu[0] = [] ∧
    (inState .fault .quad).transit.toMark[0] = [] := by decide +kernel

theorem witness_PresetSetsThePosition : inRange 140737488355327 = true ∧ inRange (-140737488355328) = true ∧
    ∀ x ∈ [TrackState.disabled, .settling, .running, .fault], (inState x .quad).tracks[0].state = x ∧
      (inState x .quad).links = State.reset.links := by decide +kernel

theorem witness_HomeSimulationAndStatistics :
    (inState .running .quad).tracks[0].cfg.source = .quad ∧ (inState .running .sim).tracks[0].cfg.source = .sim ∧
    (inState .running .sampled).tracks[0].cfg.source ≠ .quad ∧ (inState .running .sampled).tracks[0].cfg.source ≠ .sim ∧
    inRange 140737488355327 = true ∧ [(0 : Byte), 0, 0, 0, 0, 0].length = 6 ∧
    (-2147483648 ≤ (10000001 : Int) ∧ (10000001 : Int) ≤ 2147483647 ∧ (10000000 : Int) < 10000001) := by decide +kernel

/-- At the highest position a delta of -1 fits and one of 1 does not; with a position change on its way not all is taken. -/
theorem witness_RebaseShiftsEveryPosition :
    let s := withT0 { unit0 .running .quad with pos := 140737488355327 }
    AllTaken 0 s ∧ ¬shiftFits 0 1 s ∧ shiftFits 0 (-1) s ∧ inRange 1 = true ∧ inRange (-1) = true ∧
    ¬AllTaken 0 (putToCsu 0 [.change ⟨5, .forward, .running, 100⟩] s) := by
  have off : ∀ n : LineId, (withT0 { unit0 .running .quad with pos := 140737488355327 }).lines[n].state ≠ .on := by decide +kernel
  refine ⟨⟨rfl, by decide +kernel, by decide +kernel, by decide +kernel⟩, fun h => ?_, ⟨by decide +kernel, ?_, ?_, ?_⟩,
    by decide, by decide, fun h => ?_⟩
  · exact absurd h.1 (by decide +kernel)
  · intro c hc; exact absurd hc (by rw [show (withT0 _).csu.schedules[(0 : TrackId)] = [] by decide +kernel]; simp)
  · intro h; exact absurd h (by decide +kernel)
  · intro n _ _ _ _ _ _ _ _ h; exact absurd h (off n)
  · exact absurd h.2.1 (by decide +kernel)

/-- Each cause holds and does not hold in some state. -/
theorem witness_ClearTrackFaultTestsPersistence :
    let s := fun (t : Track) => (withT0 { t with state := .fault }).tracks[0]
    let t := unit0 .fault .quad
    (s { t with cause := .sample, framingValid := false }).framingValid = false ∧
    (s { t with cause := .quad, lastIllegal := 3 }).cfg.errorLimit ≤ 3 ∧
    (s { t with cause := .range, clamp := some .high, pos := 140737488355327 }).pos = 140737488355327 ∧
    (s { t with cause := .range, clamp := some .low, pos := -140737488355328 }).clamp = some .low ∧
    (s { t with cause := .overspeed, vel := -100, cfg := { t.cfg with overspeed := 99 } }).cfg.overspeed ≠ 0 ∧
    ((99 : Nat) : Int) < |(-100 : Int)| ∧ (s { t with cause := .sample }).framingValid = true := by decide +kernel

/-! ### Witnesses: the cue schedules -/

/-- An ADD_CUE for T0 and L0 at the highest position. -/
def lastCue : AddCueArgs := ⟨0, 0, 9, 140737488355327, .always, some 7, some 16777215, some 0, some ⟨1, 65535⟩⟩

/-- The stamp counter at its last value. -/
def stamped (s : State) : State := { s with csu := { s.csu with stamp := 4294967295 } }

/-- Each refusal of R50 occurs, and an admission behind a cue at 50, with the counter at its last value and not. -/
theorem witness_AddCueIsJudgedAndAdmitted :
    addCueFits lastCue ∧
    (let s := setSchedule 0 [cue 7 0 50] (inState .running .quad)
     s.lines[0].cfg.track = 0 ∧ s.csu.evaluation = none ∧ s.csu.stamp ≠ 4294967295 ∧ (stamped s).csu.stamp = 4294967295 ∧
     (stampReady (stamped s)).csu.schedules[0] = [{ cue 7 0 50 with stamp := 0 }] ++ [] ∧ s.links = State.reset.links ∧
     effectiveAt s 0 0 140737488355327 = 140737488355327 ∧ freeCount s = 511 ∧ s.csu.taken[0] = 0 ∧
     (s.csu.schedules[0]).any (fun c => c.key = .host 7) = true ∧ s.lines[1].cfg.track = 0 ∧
     s.csu.schedules[0] = [cue 7 0 50] ++ [] ∧ 1 < s.tracks[0].cfg.scheduleLimit) ∧
    (setLine 0 { Line.reset with cfg := { Line.reset.cfg with track := 1 } } State.reset).lines[0].cfg.track ≠ 0 ∧
    140737488355327 < effectiveAt (setLine 0 { Line.reset with cfg := { Line.reset.cfg with offset := 1 } } State.reset)
      0 0 140737488355327 ∧
    freeCount (setSchedule 0 (List.replicate 512 (cue 7 0 50)) State.reset) = 0 := by
  refine ⟨⟨by decide, ?_, ?_, ?_⟩, by decide +kernel, by decide +kernel, by decide +kernel, by decide +kernel⟩ <;>
    simp [lastCue]

theorem witness_CancelAndFlushRemoveCues :
    let s := setSchedule 0 [cue 7 0 50, cue 8 1 60] State.reset
    s.csu.evaluation = none ∧ s.csu.schedules[0] = [cue 7 0 50] ++ cue 8 1 60 :: [] ∧ (cue 8 1 60).key = .host 8 ∧
    (∀ c ∈ [cue 7 0 50], c.key ≠ .host 8) ∧ (∀ c ∈ s.csu.schedules[0], c.key ≠ .host 9) := by decide +kernel

theorem witness_ScheduleQueriesChangeNothing :
    let s := setSchedule 0 [cue 7 0 50, cue 8 1 60] State.reset
    s.csu.evaluation = none ∧ s.csu.schedules[0] = [cue 7 0 50] ++ cue 8 1 60 :: [] ∧
    (∀ c ∈ s.csu.schedules[0], c.key ≠ .mark 0 8) := by decide +kernel

/-- T0 with one cue at 50 and a position change to `x` on its way. -/
def evaluating (x : Int) (c : Cue) (y : TrackState) : State :=
  putToCsu 0 [.change ⟨x, .forward, y, 100⟩] (setSchedule 0 [c] (setLine 0 (lineIn .off) (inState .running .quad)))

/-- Each decision of Table 4-2 occurs for a cue that is just reached, and a cue one count ahead is not. -/
theorem witness_EvaluationEventDecides :
    let s := evaluating 50 (cue 7 0 50) .running
    (evaluating 49 (cue 7 0 50) .running).transit.toCsu[0] = .change ⟨49, .forward, .running, 100⟩ :: [] ∧
    ahead .forward 50 49 = true ∧ ahead .forward 50 50 = false ∧ s.csu.evaluation = none ∧
    s.csu.modes[0] = .evaluating ∧ (setMode 0 .frozen s).csu.modes[0] = .frozen ∧ s.csu.schedules[0] = cue 7 0 50 :: [] ∧
    (cue 7 0 50).repetition = none ∧
    s.tracks[0].cfg.travel = .forward ∧
    (let at_ := fun y x => (⟨x, .forward, y, 100⟩ : EvalInput)
     decided s (at_ .settling 50) (cue 7 0 50) = some .missed ∧ decided s (at_ .running 50) (cue 7 0 50) = none ∧
     decided s (at_ .running 52) { cue 7 0 50 with tolerance := some 1 } = some .late ∧
     decided (putProfile 0 { Profile.reset with minSpeed := 101 } s) (at_ .running 50) (cue 7 0 50) = some .slow ∧
     decided { s with inhibited := true } (at_ .running 50) (cue 7 0 50) = some .inhibited) := by decide +kernel

/-- An event that reaches a repeating cue and the cue behind it resolves both: cue 7 at 50 with pitch 3, then cue 8 at 51. -/
theorem test_event_goes_on_with_the_next_head :
    let c := { cue 7 0 50 with repetition := some ⟨3, 1⟩ }
    let s := after (.evaluationEvent 0) (setSchedule 0 [c, cue 8 0 51] (evaluating 52 c .settling))
    s.csu.schedules[0].map (fun c => (c.key, c.effective, c.index)) = [(.host 7, 53, 1)] ∧
    s.transit.toQueue.on0.length = 2 ∧ s.csu.evaluation = none := by decide +kernel

/-- L0 in a state with a firing request for the cue at 50 of T0. -/
def firing (u : Line) (inhibited : Bool) : State :=
  let s := setLine 0 u (setSchedule 0 [cue 7 0 50] (inState .running .quad))
  { setEvaluation (some ⟨0, ⟨50, .forward, .running, 100⟩, ⟨0, 0, false, none⟩⟩) s with inhibited := inhibited }

theorem witness_FiringRequestIsAnswered :
    (∀ x ∈ [LineState.disabled, .off, .on, .holdoff, .test, .fault],
      (firing (lineIn x) false).lines[0].state = x ∧ (firing (lineIn x) false).csu.schedules[0] = cue 7 0 50 :: [] ∧
      (firing (lineIn x) false).csu.evaluation = some ⟨0, ⟨50, .forward, .running, 100⟩, ⟨0, 0, false, none⟩⟩) ∧
    (firing (lineIn .off) true).inhibited = true ∧ inRange 50 = true ∧ State.reset.csu.evaluation = none ∧
    (firing { lineIn .on with cfg := { (lineIn .on).cfg with policy := .retrigger } } false).lines[0].cfg.policy = .retrigger ∧
    (setTaken 0 50 (firing (lineIn .off) false)).csu.taken[0] = 50 ∧ (firing (lineIn .off) false).csu.modes[0] = .evaluating ∧
    (firing (lineIn .off) false).tracks[0].cfg.travel = .forward := by decide +kernel

/-- A shift to the highest position fits, one past it does not, and at remaining 0 the record is freed. -/
theorem witness_RepeatingCueIsReinserted :
    let c := { cue 7 0 140737488355326 with repetition := some ⟨1, 1⟩ }
    let s := evaluating 140737488355326 c .settling
    s.transit.toCsu[0] = .change ⟨140737488355326, .forward, .settling, 100⟩ :: [] ∧ s.csu.evaluation = none ∧
    s.csu.modes[0] = .evaluating ∧ s.csu.schedules[0] = c :: [] ∧ ahead .forward c.effective 140737488355326 = false ∧
    s.tracks[0].cfg.travel = .forward ∧ decided s ⟨140737488355326, .forward, .settling, 100⟩ c = some .missed ∧
    decided { s with inhibited := true } ⟨140737488355326, .forward, .running, 100⟩ c = some .inhibited ∧
    (stampReady (stamped s)).csu.stamp = 1 ∧ inRange (c.effective + 1) = true ∧
    ahead .forward (c.effective + 1) 140737488355326 = true ∧ inRange (c.effective + 2) = false ∧
    (evaluating 50 { cue 7 0 50 with repetition := some ⟨1, 0⟩ } .settling).csu.schedules[0] =
      { cue 7 0 50 with repetition := some ⟨1, 0⟩ } :: [] := by decide +kernel

theorem witness_TrackNoticesRemoveReachedCues :
    let s := fun n => putToCsu 0 [n] (setSchedule 0 [cue 7 0 50, cue 8 0 51] State.reset)
    (s (.discontinuity 50)).transit.toCsu[0] = .discontinuity 50 :: [] ∧ (s (.resume 50)).transit.toCsu[0] = .resume 50 :: [] ∧
    (s .freeze).transit.toCsu[0] = .freeze :: [] ∧ (s .freeze).csu.evaluation = none ∧
    ahead .forward 50 50 = false ∧ ahead .forward 51 50 = true := by decide +kernel

/-- T0 with a spawn request of a mark at `x` with offset 1. -/
def spawning (x : Int) (s : State) : State := putSpawns 0 [⟨0, 1, x, { Template.reset with offset := 1 }⟩] s

/-- Each refusal of R53 occurs, a cue that is just reached, one just ahead, an empty pool and a full schedule. -/
theorem witness_SpawnRequestIsJudged :
    let s := inState .running .quad
    (spawning 0 s).transit.spawns[0] = ⟨0, 1, 0, { Template.reset with offset := 1 }⟩ :: [] ∧
    (spawning 0 s).csu.evaluation = none ∧ (stampReady (stamped (spawning 0 s))).csu.schedules[0] = [] ++ [] ∧
    (inState .disabled .quad).tracks[0].state = .disabled ∧ inRange (140737488355327 + 1) = false ∧
    (setLine 0 { Line.reset with cfg := { Line.reset.cfg with track := 1 } } s).lines[0].cfg.track ≠ 0 ∧
    ahead .forward 0 s.csu.taken[0] = false ∧ ahead .forward 1 s.csu.taken[0] = true ∧ freeCount s = 512 ∧
    cueCount s 0 < s.tracks[0].cfg.scheduleLimit ∧
    freeCount (setSchedule 0 (List.replicate 512 (cue 7 0 50)) s) = 0 ∧
    s.tracks[0].cfg.scheduleLimit ≤ cueCount (setSchedule 0 (List.replicate 128 (cue 7 0 50)) s) 0 := by decide +kernel

theorem witness_FlushLossPolicyIsApplied :
    let s := fun ns => setTransit { Transit.empty with csuLoss := ns } (setSchedule 0 [cue 7 0 50, cue 8 1 60] State.reset)
    (s [.track 0]).transit.csuLoss = .track 0 :: [] ∧ (s [.line 1]).transit.csuLoss = .line 1 :: [] ∧
    (s [.line 1]).csu.evaluation = none ∧ ((s []).csu.schedules[0]).filter (fun c => c.line = 1) ≠ [] ∧
    ((s []).csu.schedules[0]).filter (fun c => c.line = 2) = [] ∧
    (setTransit { Transit.empty with markLoss := Transit.empty.markLoss.set 0 2 } State.reset).transit.markLoss[0] = 1 + 1 ∧
    (setTransit { Transit.empty with lineLoss := Transit.empty.lineLoss.set 0 1 } State.reset).transit.lineLoss[0] = 0 + 1 ∧
    State.reset.lines[0].state ≠ .on ∧
    (setLine 0 { lineIn .on with pulse := some (pulse (.time 9)) } State.reset).lines[0].pulse = some (pulse (.time 9)) := by
  decide +kernel

/-! ### Witnesses: the mark units -/

/-- MU0 in a state at pitch 1000 and tolerance 50, with T0 in a state at `x` and its last mark at 0. -/
def edging (m : MarkState) (y : TrackState) (x : Int) : State :=
  setMark 0 { Mark.reset with state := m, valid := true, cfg := ⟨.rising, 200, 1000, 50, 2, true⟩ }
    (withT0 { unit0 y .quad with pos := x })

/-- An edge 949 counts after the last mark is early, one 950 counts after it is not. -/
theorem witness_MarkEdgeIsHandled :
    (∀ m ∈ [MarkState.off, .armed, .blanked, .lost], (edging m .running 950).marks[0].state = m) ∧
    (edging .armed .running 949).marks[0].cfg.edge = .rising ∧ MarkEdge.falling ≠ .rising ∧
    pastBy .forward 949 0 < (1000 : Int) - 50 ∧ ¬(pastBy .forward 950 0 < (1000 : Int) - 50) ∧
    (edging .armed .fault 950).tracks[0].state = .fault ∧ MarkNotice.fault ∉ (edging .armed .fault 950).transit.toMark[0] ∧
    MarkNotice.fault ∈ (putToMark 0 [.fault] (edging .armed .fault 950)).transit.toMark[0] ∧
    (edging .armed .settling 950).tracks[0].state = .settling := by decide +kernel

/-- R99, first row: an edge before MUk has taken the fault entry is captured, and the unit is LOST when it takes it. -/
theorem test_edge_before_the_fault_notice_is_captured :
    let s := after (.markEdge 0 .rising) (putToMark 0 [.fault] (edging .armed .fault 950))
    s.marks[0].state = .blanked ∧ s.marks[0].last = 950 ∧ s.tracks[0].stats.ignoredMarks = 0 ∧
    (after (.markFaultNotice 0) s).marks[0].state = .lost := by decide +kernel

/-- The watch point 1050 counts after the last mark, and the end of blanking 200 counts after it. -/
theorem witness_MarkUnitWatchesPositionChanges :
    (∀ x ∈ [(1049 : Int), 1050, 199, 200], (putToMark 0 [.change x] (edging .blanked .running x)).transit.toMark[0] =
      .change x :: []) ∧
    ((1000 : Nat) : Int) + (50 : Nat) ≤ pastBy .forward 1050 0 ∧ ¬((1000 : Nat) : Int) + (50 : Nat) ≤ pastBy .forward 1049 0 ∧
    ((200 : Nat) : Int) ≤ pastBy .forward 200 0 ∧ pastBy .forward 199 0 < ((200 : Nat) : Int) ∧
    pastBy .forward 1050 0 < 2 * ((1000 : Nat) : Int) + (50 : Nat) ∧
    ¬pastBy .forward 2050 0 < 2 * ((1000 : Nat) : Int) + (50 : Nat) ∧
    (putToMark 0 [.change 2050] (edging .armed .running 2050)).transit.toMark[0] = .change 2050 :: [] ∧
    (putToMark 0 [.change 1050, .fault] (edging .armed .fault 1050)).transit.toMark[0] = .change 1050 :: [.fault] ∧
    (edging .armed .running 1050).marks[0].substitutions < 2 ∧ (edging .armed .running 1050).marks[0].valid = true ∧
    (setMark 0 { (edging .armed .running 1050).marks[0] with substitutions := 2 } State.reset).marks[0].cfg.limit ≤ 2 := by
  decide +kernel

theorem witness_TrackNoticesLoseTheMark :
    (∀ m ∈ [MarkState.off, .armed, .blanked, .lost], (edging m .running 0).marks[0].state = m) ∧
    (putToMark 0 [.fault] State.reset).transit.toMark[0] = .fault :: [] ∧
    (putToMark 0 [.discontinuity] State.reset).transit.toMark[0] = .discontinuity :: [] := by decide +kernel

theorem witness_MarkCommandsSetTheUnit :
    (let c : MarkConfig := ⟨.falling, 16777215, 2147483647, 2147483646, 15, true⟩
     c.blank ≤ 16777215 ∧ c.pitch ≤ 2147483647 ∧ (if c.pitch = 0 then c.tolerance = 0 else c.tolerance < c.pitch) ∧ c.limit ≤ 15) ∧
    (if (0 : Nat) = 0 then (0 : Nat) = 0 else (0 : Nat) < 0) ∧
    (inState .disabled .quad).tracks[0].state = .disabled ∧ (inState .fault .quad).tracks[0].state ≠ .disabled ∧
    (inState .fault .quad).marks[0].state = .off ∧ (edging .lost .running 0).marks[0].state ≠ .off ∧
    (let t : Template := ⟨true, 2147483647, 0, some 7, some 16777215, some 2147483647, .always⟩
     t.offset ≤ 2147483647 ∧ State.reset.lines[t.line].cfg.track = 0 ∧ State.reset.lines[t.line].cfg.track ≠ 1) := by
  decide +kernel

/-! ### Witnesses: the lines -/

/-- L0 ON with this pulse. -/
def pulsing (e : PulseEnd) : State := setLine 0 { lineIn .on with pulse := some (pulse e) } State.reset

/-- A DISTANCE pulse that ends at 50: a change to 49 leaves it ahead, one to 50 reaches it. -/
theorem witness_PulseEndsAreFollowedByHoldoff :
    (pulsing (.time 9)).lines[0].state = .on ∧ (pulsing (.time 9)).lines[0].pulse = some (pulse (.time 9)) ∧
    (pulsing (.distance 50 .forward (some 9))).lines[0].pulse = some (pulse (.distance 50 .forward (some 9))) ∧
    (setLine 0 { lineIn .holdoff with holdoffTimer := some 5 } State.reset).lines[0].state = .holdoff ∧
    State.reset.lines[0].state ≠ .holdoff ∧
    (putToLine 0 [.change 0 50] (pulsing (.distance 50 .forward none))).transit.toLine[0] = .change 0 50 :: [] ∧
    (putToLine 0 [.truncate 0 .track] (pulsing (.distance 50 .forward none))).transit.toLine[0] = .truncate 0 .track :: [] ∧
    (pulsing (.time 9)).lines[0].cfg.track = 0 ∧ (pulsing (.time 9)).lines[0].cfg.track ≠ 1 ∧
    ahead .forward 50 49 = true ∧ ahead .forward 50 50 = false := by decide +kernel

theorem witness_InhibitFollowsThePin :
    let s := setLine 1 (lineIn .test) (pulsing (.time 9))
    (∀ n : LineId, (s.lines[n].pulse.isSome = true ↔ s.lines[n].state = .on)) ∧ s.inhibited = false ∧
    ({ s with inhibited := true } : State).inhibited = true := by decide +kernel

theorem witness_SetLineConfiguresTheLine :
    State.reset.transit.forcing[0] = false ∧ (-1048576 ≤ (-1048576 : Int) ∧ (1048575 : Int) ≤ 1048575) ∧
    (∀ x ∈ [LineState.off, .on, .holdoff, .test, .fault], (setLine 0 (lineIn x) State.reset).lines[0].state = x ∧
      (setLine 0 (lineIn x) State.reset).lines[0].cfg.enabled = true) ∧
    pendingCount (setSchedule 0 [cue 7 0 50] State.reset) 0 ≠ 0 ∧ State.reset.lines[0].cfg.enabled = false ∧
    (1 : TrackId) ≠ State.reset.lines[0].cfg.track := by decide +kernel

theorem witness_ProfilesAndForcedPulses :
    (∀ f ∈ [(⟨.time, 65535, 65535, 2147483647, 0⟩ : Profile), ⟨.distance, 16777215, 0, 0, 65535⟩], 1 ≤ f.width ∧
      f.width ≤ (if f.mode = .time then 65535 else 16777215) ∧ f.holdoff ≤ 65535 ∧ f.minSpeed ≤ 2147483647 ∧
      f.maxOn ≤ (if f.mode = .time then 0 else 65535)) ∧
    (∀ x ∈ [LineState.disabled, .off, .on, .holdoff, .test, .fault], (firing (lineIn x) false).lines[0].state = x) ∧
    (firing (lineIn .off) true).inhibited = true := by decide +kernel

/-! ### Witnesses: the Load Supervisor -/

/-- L0 with these items at the LSV, the line in a state. -/
def sensing (v : DriveView) (c : SenseCond) (b : Blanking) (x : LineState) : State :=
  setLoad 0 { Load.reset c with view := v, blanking := b } (setLine 0 (lineIn x) State.reset)

theorem witness_SenseIsJudged :
    (∀ v ∈ [DriveView.inactive, .active, .probe], (sensing v .normal .stopped .on).loads[0].view = v ∧
      (sensing v .normal .stopped .on).loads[0].sense ≠ .stuckOn) ∧
    (sensing .active .normal .expired .on).loads[0].sense = .normal ∧
    (sensing .active .noLoad (.running 100) .on).loads[0].blanking = .running 100 ∧
    (∀ x, (sensing .active .noLoad .expired .on).loads[0].blanking ≠ .running x) := by
  refine ⟨by decide +kernel, by decide +kernel, by decide +kernel, fun x h => ?_⟩
  have : (sensing .active .noLoad .expired .on).loads[0].blanking = .expired := by decide +kernel
  rw [this] at h; cases h

theorem witness_DriveViewFollowsTheLine :
    (∀ m ∈ [LoadNotice.begun, .ended, .probing], (putToLsv 0 [m] State.reset).transit.toLsv[0] = m :: []) ∧
    (let s := setSweep { Sweep.reset with running := true, current := some 0 } State.reset
     s.sweep.running = true ∧ s.sweep.current = some 0 ∧ s.loads[0].sense ≠ .overcurrent) ∧
    ¬(State.reset.sweep.running = true ∧ State.reset.sweep.current = some 0) ∧ State.reset.transit.forcing[0] = false ∧
    (putForcing 0 true State.reset).transit.forcing[0] = true ∧ (putForcing 0 true State.reset).transit.toLsv[0] = [] ∧
    State.reset.sweep.probeTimer = none ∧
    State.reset.lines[0].state = .disabled ∧ (sensing .active .overcurrent .stopped .on).lines[0].state ≠ .disabled := by
  decide +kernel

theorem witness_SupervisionCommandsActOnTheLine :
    State.reset.transit.forcing[0] = false ∧ (⟨true, true, true⟩ : FaultSet) ≠ ⟨false, false, false⟩ ∧
    (sensing .active .noLoad .expired .on).loads[0].sense = .noLoad ∧ (sensing .active .noLoad .expired .on).loads[0].view = .active ∧
    (sensing .inactive .stuckOn .stopped .fault).loads[0].view ≠ .probe ∧
    (sensing .inactive .normal .stopped .fault).loads[0].sense = .normal ∧
    ((0 : Nat) = 0 ∧ 100 ≤ 60000 ∧ 1000 ≤ 1000) := by decide +kernel

theorem witness_SweepVisitsTheLines :
    let s := setSweep { Sweep.reset with running := true, periodTimer := some 9, request := some 15 } State.reset
    s.sweep.running = true ∧ State.reset.sweep.running = false ∧ State.reset.inhibited = false ∧
    ({ State.reset with inhibited := true } : State).inhibited = true ∧ s.sweep.periodTimer.isSome = true ∧
    State.reset.sweep.periodTimer = none ∧ State.reset.sweep.request ≠ some 15 ∧ s.sweep.request = some 15 ∧
    s.transit.forcing[15] = false ∧ (∀ m : LineId, s.lines[m].state ≠ .test) ∧ s.lines[15].state ≠ .off ∧
    (setLine 15 (lineIn .off) s).lines[15].state = .off := by decide +kernel

theorem witness_ProbesEndWithTheirResult :
    let w := { Sweep.reset with running := true, current := some 0, probeTimer := some 20 }
    let s := fun c => setSweep w (sensing .probe c .stopped .test)
    (∀ c ∈ [SenseCond.normal, .noLoad, .stuckOn], (s c).sweep.running = true ∧ (s c).sweep.current = some 0 ∧
      (s c).sweep.probeTimer.isSome = true ∧ (s c).loads[0].view = .probe ∧ (s c).transit.toLsv[0] = [] ∧
      (s c).loads[0].sense ≠ .overcurrent) ∧
    (let t := putForcing 0 true (s .stuckOn)
     t.transit.forcing[0] = true ∧ t.transit.toLsv[0] = [] ∧ t.lines[0].state ≠ .disabled ∧ t.loads[0].view = .probe) ∧
    (let t := putToLsv 0 [.probing] (s .overcurrent)
     t.transit.toLsv[0] = .probing :: [] ∧ t.loads[0].sense = .overcurrent ∧ t.sweep.current = some 0) ∧
    (∀ a ∈ [Abandon.pulse, .disabling, .inhibit],
      (putToLsv 0 [.abandoned a] (s .normal)).transit.toLsv[0] = .abandoned a :: []) ∧
    State.reset.sweep.running = false ∧ State.reset.transit.inhibitLsv = false ∧
    (let t := setTransit { Transit.empty with inhibitLsv := true } (s .normal)
     t.transit.inhibitLsv = true ∧ t.sweep.probeTimer.isSome = true) ∧
    (setSweep { w with probeTimer := none } State.reset).sweep.probeTimer = none := by decide +kernel

/-! ### Witnesses: the links -/

/-- LINK1 or LINK0 with this interface. -/
def linked (l : LinkId) (u : Link) : State := setLink l u State.reset

theorem witness_unfinished : Unfinished [] ∧ Unfinished [0xC3] ∧ Unfinished (0xC3 :: 1 :: List.replicate 4 0) ∧
    Unfinished (0xC3 :: 200 :: List.replicate 203 0) :=
  ⟨.inl rfl, .inr (.inl rfl), .inr (.inr ⟨1, _, rfl, by decide, by decide, by decide⟩),
    .inr (.inr ⟨200, _, rfl, by decide, by decide, by rw [List.length_replicate]; decide⟩)⟩

theorem witness_BytesFillTheReceiver :
    let s := { linked .link1 { Link.reset with outbound := some ⟨.reply, [1], 0⟩ } with
      pins := { Pins.rest with selected := true } }
    (linkOn s .link0).receiver = [] ∧ s.pins.selected = true ∧ State.reset.pins.selected = false ∧
    (linkOn s .link1).outbound = some ⟨.reply, [1], 0⟩ ∧ (0 : Nat) < [(1 : Byte)].length ∧
    (linkOn (linked .link1 { Link.reset with outbound := some ⟨.reply, [1], 0⟩ }) .link1).outbound = some ⟨.reply, [1], 0⟩ ∧
    (linked .link1 { Link.reset with outbound := some ⟨.reply, [1], 0⟩ }).pins.selected = false ∧
    (linkOn State.reset .link1).outbound = none ∧ (linkOn State.reset .link1).syncOut = false ∧
    (linkOn (after .cs1nFall State.reset) .link1).syncOut = true := by decide +kernel

/-- R142, R149: a fill byte presented is sent even when a record comes; the SYNC follows, and a reply then goes before the report.
-/
theorem test_link1_chooses_with_the_first_byte :
    let s := after .cs1nFall (setQueue .link1 { Queue.reset .power with records := [] } State.reset)
    let t := raiseTo .link1 .linkResumed s
    let u := after (.receivedByte .link1 0) (after (.reportRecord .link1) t)
    let v := setLink .link1 { linkOn u .link1 with replyPending := true, storedReply := some [0xC3, 1] } u
    sdo1 s = some false ∧ sdo1 (after (.reportRecord .link1) t) = some false ∧ attn1 (after (.reportRecord .link1) t) = true ∧
    sdo1 u = some true ∧ (linkOn (after (.receivedByte .link1 0) v) .link1).outbound = some ⟨.reply, [0xC3, 1], 1⟩ := by
  decide +kernel

/-- A whole frame is valid, with one wrong CRC byte or TYPE 02H it is not, and its bytes hold no second SYNC. -/
theorem witness_FramesAreJudged :
    let body : List Byte := [1, 1, 7, 0x02]
    (∃ a b, crcBytes body = [a, b] ∧ (∀ x ∈ body ++ [a, b], x ≠ 0xC3) ∧
      (linkOn (linked .link0 { Link.reset with receiver := 0xC3 :: (body ++ [a, b]) }) .link0).receiver =
        0xC3 :: (body ++ [a, b])) ∧
    crcBytes body ≠ [0, 0] ∧ (2 : Byte) ≠ 1 ∧
    2 ≤ (linkOn (linked .link0 { Link.reset with inbound := [⟨0, [1], false⟩, ⟨1, [1], false⟩] }) .link0).inbound.length ∧
    (linkOn (linked .link0 { Link.reset with current := some ⟨⟨0, [1], false⟩, true, false⟩ }) .link0).current ≠ none ∧
    (0 : Byte).toNat = 0 ∧ 200 < (201 : Byte).toNat ∧ (linkOn State.reset .link0).receiver = [] ∧
    ({ State.reset with pins := { Pins.rest with selected := true } } : State).pins.selected = true ∧
    (∀ x ∈ ([1, 1] : List Byte), x ≠ 0xC3) := by
  refine ⟨⟨_, _, rfl, by decide +kernel, rfl⟩, by decide +kernel, by decide +kernel, by decide +kernel, by decide +kernel,
    by decide +kernel, by decide +kernel, by decide +kernel, by decide +kernel, by decide +kernel⟩

/-- A complete frame with a right and with a wrong check sequence, and a buffer with room and without, for each rule of a rescan. -/
theorem witness_FramesAreJudged_rescan :
    let bs := (frameBytes 1 7 [2]).tail
    Framed 1 7 [2] bs ∧ Valid 1 7 [2] bs ∧ Framed 1 7 [2] [1, 1, 7, 2, 0, 0] ∧ ¬Valid 1 7 [2] [1, 1, 7, 2, 0, 0] ∧
    (linkOn (linked .link0 { Link.reset with receiver := 0xC3 :: bs ++ [0xC3] }) .link0).receiver = 0xC3 :: bs ++ [0xC3] ∧
    Unfinished [0xC3, 9, 0xC3, 9, 0] ∧
    (linkOn (linked .link0 { Link.reset with receiver := [0xC3, 9, 0xC3, 9, 0] }) .link0).receiver = [0xC3, 9, 0xC3, 9, 0] :=
  ⟨⟨by decide, _, _, rfl⟩, by constructor <;> decide +kernel, ⟨by decide, 0, 0, rfl⟩, fun h => absurd h.1 (by decide +kernel), rfl,
    .inr (.inr ⟨9, _, rfl, by decide, by decide, by decide⟩), rfl⟩

/-- R143: a valid frame among the payload bytes of a frame with a wrong check sequence is found, after one bad frame. -/
theorem test_rescan_finds_a_frame :
    let inner := frameBytes 1 7 [2]
    let u := linkOn (after (.completeFrame .link0)
      (linked .link0 { Link.reset with receiver := [0xC3, 9, 1, 5, 0] ++ inner ++ [0, 0, 0] })) .link0
    u.badFrames = 1 ∧ u.current = some ⟨⟨7, [2], false⟩, false, false⟩ ∧ u.receiver = [] := by decide +kernel

/-- R145: a frame begun in the rescan of a truncated one is dropped without a second count. -/
theorem test_truncation_drops_what_the_rescan_begins :
    let u := linkOn (after .gapTruncation (linked .link0 { Link.reset with receiver := [0xC3, 9, 0xC3, 9, 0] })) .link0
    u.truncated = 1 ∧ u.badFrames = 0 ∧ u.receiver = [] := by decide +kernel

/-- A queue with a due record, with a window of seven and one of eight, and with nothing waiting. -/
theorem witness_OutboundFramesAreChosenInOrder :
    let r := fun x => (⟨.linkResumed, 0, x⟩ : Record)
    let q := fun rs => { Queue.reset .power with records := rs }
    (linkOn State.reset .link0).outbound = none ∧ (linkOn State.reset .link0).holdReports = false ∧
    State.reset.baud.pending = none ∧
    (let s := { linked .link1 { Link.reset with syncOut := true } with pins := { Pins.rest with selected := true } }
     s.pins.selected = true ∧ (linkOn s .link1).syncOut = true ∧ (linkOn s .link1).receiver = [] ∧
     (linkOn s .link1).outbound = none) ∧
    (linkOn (linked .link1 { Link.reset with outbound := some ⟨.reply, [1], 0⟩ }) .link1).outbound = some ⟨.reply, [1], 0⟩ ∧
    (q [r (.inFlight false), r (.inFlight true)]).records = [r (.inFlight false)] ++ r (.inFlight true) :: [] ∧
    (q (List.replicate 7 (r (.inFlight false)) ++ [r .waiting])).inFlight < 8 ∧
    8 ≤ (q (List.replicate 8 (r (.inFlight false)) ++ [r .waiting])).inFlight ∧
    (∀ x ∈ (q [r (.inFlight false)]).records, x.standing ≠ .waiting) ∧
    (linkOn (linked .link0 { Link.reset with replyPending := true, storedReply := some [1] }) .link0).storedReply = some [1] := by
  decide +kernel

theorem witness_SentFramesActOnTheirLink :
    let o := fun k n => some (Outbound.mk k [1, 2] n)
    (linkOn (linked .link1 { Link.reset with outbound := o .reply 1 }) .link1).outbound = o .reply 1 ∧
    (linkOn (linked .link1 { Link.reset with
      outbound := o .reply 2, current := some ⟨⟨0, [1], false⟩, true, false⟩ }) .link1).resetWait = false ∧
    (linkOn (linked .link0 { Link.reset with outbound := o (.report 0) 0 }) .link0).outbound = o (.report 0) 0 ∧
    (let q := { Queue.reset .power with records := [⟨.reset .power, 0, .sending⟩] }
     (queueOn (setQueue .link0 q State.reset) .link0).records = [] ++ ⟨.reset .power, 0, .sending⟩ :: []) ∧
    (∀ x ∈ (queueOn State.reset .link0).records, x.standing ≠ .sending) ∧
    (let s := { State.reset with baud := ⟨.b115200, some .b921600, none⟩ }
     s.baud.pending = some .b921600 ∧ s.baud.awaiting = none ∧ (linkOn s .link0).receiver = []) ∧
    ({ State.reset with baud := ⟨.b115200, some .b921600, some .link1⟩ } : State).baud.awaiting ≠ none := by decide +kernel

/-- LINK0 with nothing to choose, sending a reply and sending a report, for the clauses on the end of a row. -/
theorem witness_OutboundFramesAreChosenInOrder_rows :
    let o := fun k => some (Outbound.mk k [1, 2] 0)
    let q := { Queue.reset .power with records := [⟨.reset .power, 0, .sending⟩], resendTimer := some 9 }
    let s := fun u => setQueue .link0 q (linked .link0 u)
    Begun .link0 (s Link.reset) (kick (s Link.reset)) ∧ kick (s Link.reset) = s Link.reset ∧
    (let u := linkOn (kick (s { Link.reset with outbound := o .reply, current := some ⟨⟨0, [1], false⟩, true, false⟩ })) .link0
     u.outbound = o .reply ∧ u.resetWait = false ∧ u.current = some ⟨⟨0, [1], false⟩, true, false⟩) ∧
    (let t := kick (s { Link.reset with outbound := o (.report 0) })
     (linkOn t .link0).outbound = o (.report 0) ∧
     (queueOn t .link0).records = [] ++ ⟨.reset .power, 0, .sending⟩ :: [] ∧ (queueOn t .link0).resendTimer ≠ none) ∧
    (raiseTo .link0 .linkResumed (s Link.reset)).transit.toQueue.at_ .link0 = [.linkResumed] :=
  ⟨kick_begun _, by decide +kernel, by decide +kernel, by decide +kernel, by decide +kernel⟩

/-- R177, R175: at the expiry an idle LINK0 begins the oldest record again and leaves the other due; LINK1 leaves both due. -/
theorem test_resend_expiry_marks_the_records :
    let q := { Queue.reset .power with
      records := [⟨.reset .power, 0, .inFlight false⟩, ⟨.linkResumed, 1, .inFlight false⟩], resendTimer := some 9 }
    let s := fun l => after (.resendExpiry l) (setQueue l q State.reset)
    (queueOn (s .link0) .link0).records.map (·.standing) = [.inFlight false, .inFlight true] ∧
    (linkOn (s .link0) .link0).outbound = reportOut ⟨.reset .power, 0, .inFlight false⟩ 0 ∧
    (queueOn (s .link1) .link1).records.map (·.standing) = [.inFlight true, .inFlight true] := by decide +kernel

/-- A queue that holds 63 records takes one more, one that holds 64 does not; an idle LINK0 with nothing to choose. -/
theorem witness_QueueEventsActOnTheRecords :
    let q := fun n => { Queue.reset .power with records := List.replicate n ⟨.linkResumed, 0, .waiting⟩ }
    let s := raiseTo .link0 .linkResumed State.reset
    s.transit.toQueue.at_ .link0 = .linkResumed :: [] ∧ (q 63).records.length < 64 ∧ 64 ≤ (q 64).records.length ∧
    (q 63).accepting = true ∧ (q 63).purge.accepting = false ∧ State.reset.transit.toQueue.at_ .link0 = [] ∧
    (q 63).resendTimer = none ∧ ({ q 63 with resendTimer := some 9 } : Queue).resendTimer ≠ none ∧
    (linkOn (linked .link0 { Link.reset with outbound := some ⟨.reply, [], 0⟩ }) .link0).outbound ≠ none ∧
    (let q := { q 0 with records := [⟨.linkResumed, 0, .inFlight false⟩] }
     reportsNext .link0 (setQueue .link0 q State.reset) ∧ offersNothing q ∧
       q.records = [] ++ ⟨.linkResumed, 0, .inFlight false⟩ :: []) := by
  unfold reportsNext rateWaits offersNothing
  decide +kernel

theorem witness_LinkLossReleasesEverything :
    (linkOn owning .link0).state = .up ∧ (linkOn owning .link0).supervision ≠ none ∧ (linkOn owning .link0).current = none ∧
    (linkOn owning .link0).replyPending = false ∧ (linkOn owning .link0).outbound = none ∧
    (linkOn State.reset .link0).state ≠ .up := by decide +kernel

/-- LINK1 UP with its supervision timer running, this current command, and otherwise as given. -/
def losing (c : Current) (u : Link) : State :=
  linked .link1 { u with state := .up, timeout := 200, supervision := some 200000, current := some c }

/-- A command of LINK1 that is executed or an orphan. -/
def atLoss (p : List Byte) (executed orphan : Bool) : Current := ⟨⟨7, p, false⟩, executed, orphan⟩

/-- Each command at the loss: an executed one with its reply pending, or being sent; one not yet executed; a duplicate. -/
theorem witness_LinkLossReleasesEverything_command :
    (let u := linkOn (losing (atLoss [2] true false) { Link.reset with replyPending := true }) .link1
     u.state = .up ∧ u.supervision ≠ none ∧ u.current = some (atLoss [2] true false) ∧ u.replyPending = true ∧
     u.resetWait = false) ∧
    (let u := linkOn (losing (atLoss [2] true false) { Link.reset with outbound := some ⟨.reply, [1, 2], 1⟩ }) .link1
     u.current = some (atLoss [2] true false) ∧ u.replyPending = false ∧ u.outbound = some ⟨.reply, [1, 2], 1⟩) ∧
    (let u := linkOn (losing (atLoss [2] false false) { Link.reset with lastSeq := some 6 }) .link1
     u.current = some (atLoss [2] false false) ∧ u.replyPending = false ∧ u.lastSeq ≠ some 7) ∧
    (let u := linkOn (losing (atLoss [2] false false) { Link.reset with lastSeq := some 7 }) .link1
     u.current = some (atLoss [2] false false) ∧ u.lastSeq = some 7 ∧ u.resetWait = false) := by decide +kernel

/-- A RESET whose reply is dropped with its link, and each orphan command that the statement names. -/
theorem witness_LinkLossReleasesEverything_reset :
    resetReplyDropped .link1 (losing (atLoss [7] true false) { Link.reset with replyPending := true, resetWait := true }) ∧
    resetOrphaned .link1 7 (losing (atLoss [7] false true) Link.reset) ∧
    (let a : SetLinkArgs := ⟨.link0, .b921600, 0, 10⟩
     let s := fun p => losing (atLoss p false true) Link.reset
     a.timeout = 0 ∧ 10 ≤ a.resend ∧ a.resend ≤ 2000 ∧ (0x58 : Byte) ∉ listedCodes ∧
     (linkOn (s [2]) .link1).state = .up ∧ (s [2]).claims[3].owner ≠ some .link0 ∧
     (linkOn (linked .link1 { Link.reset with state := .lost }) .link1).state ≠ .up ∧
     ∀ p ∈ [[0x01, 9], [0x02], [0x04, linkCode .link0], [0x58], [0x06, linkCode .link1], 0x03 :: setLinkArgs a,
         [0x10, 3, LossPolicy.keep.code], [0x11, 3]], (linkOn (s p) .link1).current = some (atLoss p false true) ∧
       (linkOn (s p) .link1).resetWait = false ∧ (linkOn (s p) .link1).replyPending = false) :=
  ⟨⟨rfl, by decide +kernel, rfl, rfl, .inl rfl⟩, ⟨_, rfl, rfl, rfl, rfl, rfl, by decide +kernel⟩, by decide +kernel⟩

theorem witness_AckReportsReleasesRecords :
    let q := { Queue.reset .power with records := [⟨.reset .power, 0, .inFlight false⟩, ⟨.linkResumed, 1, .waiting⟩] }
    let s := setQueue .link0 q State.reset
    isLost s .link0 = false ∧ s.links = State.reset.links ∧
    (queueOn s .link0).records = [] ++ ⟨.reset .power, 0, .inFlight false⟩ :: [⟨.linkResumed, 1, .waiting⟩] ∧
    (∀ x ∈ (queueOn s .link0).records, x.seq ≠ 1 ∨ x.standing.isInFlight = false) := by decide +kernel

theorem witness_SetLinkAndResetActOnTheLink :
    (let a : SetLinkArgs := ⟨.link1, .b921600, 10000, 2000⟩
     50 ≤ a.timeout ∧ a.timeout ≤ 10000 ∧ 10 ≤ a.resend ∧ a.resend ≤ 2000) ∧
    (∃ r : Fin 20, owning.claims[r].owner = some (otherLink .link1)) ∧
    (∀ r : Fin 20, State.reset.claims[r].owner ≠ some (otherLink .link1)) ∧ resetReplySent .link0 resetting :=
  ⟨by decide, by decide +kernel, by decide +kernel, rfl, _, rfl, rfl, rfl⟩

/-- A PING of 16 bytes and one of 17, an unlisted code, and LINK0 with a last SEQ and its stored reply. -/
theorem witness_LinkCommandsAreAnswered :
    (List.replicate 16 (0 : Byte)).length ≤ 16 ∧ 16 < (List.replicate 17 (0 : Byte)).length ∧ (0x58 : Byte) ∉ listedCodes ∧
    (let s := linked .link0 { Link.reset with state := .up, lastSeq := some 9, storedReply := some [1] }
     (linkOn s .link0).current = none ∧ (linkOn s .link0).inbound = [] ∧ isLost s .link0 = false ∧
     (linkOn s .link0).lastSeq = some 9 ∧ (linkOn s .link0).storedReply = some [1]) := by decide +kernel

/-- Resource 10 is LINK0's, resource 19 is nobody's. -/
theorem witness_ClaimsAreGrantedAndReleased :
    owning.claims[(10 : Fin 20)].owner = some .link0 ∧ owning.claims[(10 : Fin 20)].owner = some (otherLink .link1) ∧
    owning.claims[(19 : Fin 20)].owner = none ∧ Ready .link1 0 owning := by
  refine ⟨by decide +kernel, by decide +kernel, by decide +kernel, rfl, rfl, by decide +kernel⟩

theorem witness_CommandsAreValidatedInOrder :
    trackOwner owning 1 = some (otherLink .link1) ∧ lineOwner owning 9 = some (otherLink .link1) ∧ Ready .link1 0 owning ∧
    addCueFits lastCue ∧ trackConfigFits TrackConfig.reset ∧ markConfigFits ⟨.falling, 16777215, 1, 0, 15, true⟩ ∧
    templateFits ⟨true, 2147483647, 9, none, none, none, .always⟩ ∧ lineFits ⟨true, 0, 0, -1048576, .reject, .activeHigh⟩ ∧
    profileFits Profile.reset ∧ setLinkFits ⟨.link1, .b115200, 50, 2000⟩ ∧ periodFits 100 ∧
    (⟨true, false, false⟩ : FaultSet) ≠ ⟨false, false, false⟩ := by
  refine ⟨by decide +kernel, by decide +kernel, ⟨rfl, rfl, by decide +kernel⟩, witness_AddCueIsJudgedAndAdmitted.1,
    witness_SetTrackStoresEveryField.1, ?_, ?_, ?_, ?_, ?_, ?_, by decide⟩ <;>
  simp [markConfigFits, templateFits, lineFits, profileFits, setLinkFits, periodFits, Profile.reset]

/-- The forms of Table 11-3 are 39; an ADD_CUE without options has 12 argument bytes, a SET_TEMPLATE with a profile and a width 14;
track 4, line 16 and link 2 spell nothing. -/
theorem witness_CommandsAreValidatedInOrder_forms :
    (commandForms .link0 0 []).length = 39 ∧ addCueLength (List.replicate 12 0) = 12 ∧ setTemplateLength [0, 0, 6] = 14 ∧
    ¬onlyTrack [4] ∧ ¬onlyLine [16] ∧ ¬onlyLink [2] ∧ [(4 : Byte)].length = 1 := by
  refine ⟨rfl, rfl, rfl, ?_, ?_, ?_, rfl⟩
  · rintro ⟨k, h⟩; revert k; decide
  · rintro ⟨k, h⟩; revert k; decide
  · rintro ⟨k, h⟩; cases k <;> revert h <;> decide

/-! ### Witnesses: the invariants -/

/-- A step from a state that meets all four conditions: the hypotheses of the four invariant statements. -/
theorem witness_EveryStepKeeps :
    LinesSound State.reset ∧ TracksSound State.reset ∧ SizesSound State.reset ∧ ClaimsSound State.reset ∧
    step State.reset = .next { State.reset with now := 1 } :=
  ⟨by intro n; revert n; decide +kernel, by intro k; revert k; decide +kernel,
    ⟨by decide +kernel, by decide +kernel, fun l => by cases l <;> decide +kernel⟩,
    fun r => ⟨fun l h => by revert h; revert r l; decide +kernel, fun _ => by revert r; decide +kernel⟩, rfl⟩

end Sys2Proof.Tests
end

section
/-! SUPPORT. The statements about the track units at a window end, under HOME, SET_SIM and CLEAR_STATS, and after every reset (01). -/

namespace Sys2Proof.Machine

/-! ### Velocity windows -/

/-- The quotient truncated toward zero is the value whose multiple lies between zero and the dividend, within one divisor of it
(R19). -/
theorem tdiv_eq_of_toward_zero {d v n : Int} (hn : 0 < n)
    (h : 0 ≤ d ∧ v * n ≤ d ∧ d < (v + 1) * n ∨ d < 0 ∧ d ≤ v * n ∧ (v - 1) * n < d) : d.tdiv n = v := by
  have quotient : ∀ e w : Int, 0 ≤ e → w * n ≤ e → e < (w + 1) * n → e.tdiv n = w := fun e w he hlo hhi => by
    rw [Int.tdiv_eq_ediv_of_nonneg he]
    exact (Int.ediv_eq_iff_of_pos hn).2 ⟨hlo, by linarith⟩
  rcases h with ⟨hd, hlo, hhi⟩ | ⟨hd, hhi, hlo⟩
  · exact quotient d v hd hlo hhi
  · have := quotient (-d) (-v) (by omega) (by linarith) (by linarith)
    rw [Int.neg_tdiv] at this
    exact neg_injective this

theorem saturate32_eq (v : Int) : saturate32 v = max (-2147483648) (min 2147483647 v) := by
  unfold saturate32 saturate
  split
  · omega
  · split <;> omega

/-- The comparison of R20 on a track unit. -/
theorem isOverspeed_iff (t : Track) :
    isOverspeed t = true ↔ t.cfg.overspeed ≠ 0 ∧ (t.cfg.overspeed : Int) < |t.vel| := by
  have magnitude : (t.vel.natAbs : Int) = |t.vel| := Int.natCast_natAbs t.vel
  simp only [isOverspeed, Bool.and_eq_true, bne_iff_ne, decide_eq_true_eq]
  omega

/-- A window end rolls the window over; then only a SETTLING or RUNNING track above the limit enters FAULT (R19, R20). -/
theorem windowEnd_cases (s : State) (k : TrackId) {w : Window} (hw : s.tracks[k].window = some w)
    (he : s.tracks[k].state ≠ .disabled) :
    let t := rolledTrack s.tracks[k] w
    (t.state = .fault ∨ isOverspeed t = false → windowEnd k s = setTrack k t s) ∧
      (t.state ≠ .fault → isOverspeed t = true → windowEnd k s = enterFault k .overspeed (setTrack k t s)) := by
  have rolled : (setTrack k (rolledTrack s.tracks[k] w) s).tracks[k] = rolledTrack s.tracks[k] w := getElem_set_eq ..
  have tracking : isTracking (setTrack k (rolledTrack s.tracks[k] w) s) k = (s.tracks[k].state != .fault) := by
    have := isTracking_eq (setTrack k (rolledTrack s.tracks[k] w) s) k
    rw [rolled] at this
    exact this he
  have unfolded : windowEnd k s = if (s.tracks[k].state != .fault) && isOverspeed (rolledTrack s.tracks[k] w) then
      enterFault k .overspeed (setTrack k (rolledTrack s.tracks[k] w) s) else setTrack k (rolledTrack s.tracks[k] w) s := by
    simp only [windowEnd, hw, tracking, rolled]
  refine ⟨?_, fun hf ho => ?_⟩
  · rintro (hf | ho)
    · have hf : s.tracks[k].state = .fault := hf
      rw [unfolded, hf]
      rfl
    · rw [unfolded, ho, Bool.and_false]
      rfl
  · have hf : s.tracks[k].state ≠ .fault := hf
    rw [unfolded, ho, bne_iff_ne.2 hf]
    rfl

/-- The track unit after a window end, the velocity given by its bounds (R19). -/
theorem rolledTrack_eq (t : Track) {w : Window} {v : Int} (hv : ((t.pos - w.start) * 1000).tdiv w.length = v) :
    rolledTrack t w = { t with
      vel := max (-2147483648) (min 2147483647 v), lastIllegal := t.windowIllegal, windowIllegal := 0
      window := some ⟨t.pos, t.cfg.window⟩ } := by
  rw [rolledTrack, windowVelocity, hv, saturate32_eq]
  rfl

/-- Settles O14: the window end measured by `rolledTrack`, then the two cases of the overspeed comparison. -/
theorem windowEndMeasuresVelocity : Obligations.WindowEndMeasuresVelocity := by
  unfold Obligations.WindowEndMeasuresVelocity
  intro s k w v hw hlen hstate t d hbounds last u fast
  have htrack := rolledTrack_eq t (tdiv_eq_of_toward_zero (by exact_mod_cast hlen) hbounds)
  have hfast : isOverspeed (rolledTrack t w) = true ↔ fast := by rw [isOverspeed_iff, htrack]
  have hu : setTrack k (rolledTrack t w) s = u := by rw [htrack]
  obtain ⟨stays, faults⟩ := windowEnd_cases s k hw hstate
  refine ⟨fun h => ?_, fun hf hfa => ⟨_, rfl, ?_⟩⟩
  · rw [← hu]
    exact congrArg Host.Outcome.next (stays (h.imp_right fun h => Bool.eq_false_iff.2 (h ∘ hfast.1)))
  · show Faulted k .overspeed u (windowEnd k s)
    rw [faults hf (hfast.2 hfa), ← hu]
    exact enterFault_faulted ..

/-! ### HOME, SET_SIM and CLEAR_STATS -/

/-- A track's owner check passes for a link that may command it (R161). -/
theorem onTrack_allowed {s : State} {l : LinkId} {k : TrackId} (h : trackOwner s k ≠ some (otherLink l)) (run : Answer) :
    onTrack l k s run = run := by
  simp [onTrack, heldByOther_eq, h]

/-- The byte of a track index is read back as that track (R186). -/
theorem indexOf_indexByte : ∀ k : TrackId, indexOf 4 (unLe [indexByte k]) = some k := by decide

/-- The operands of an arming HOME are read back (R16). -/
theorem parseHome_arm (c : Byte) (k : TrackId) {x : Int} (h : inRange x = true) :
    parseHome (c :: indexByte k :: 1 :: leInt 6 x) = .ok (k, some x) := by
  have value : toSigned 6 (unLe (List.take 6 (leInt 6 x))) = x := by
    rw [List.take_of_length_le (by simp)]
    exact toSigned_leInt6 h
  have yes : yesNoOf (unLe [(1#8 : Byte)]) = some true := rfl
  simp [parseHome, judged, fieldAt, signedAt, value, indexOf_indexByte, yes]

/-- The value of a disarming HOME is not judged (R16). -/
theorem parseHome_disarm (c : Byte) (k : TrackId) {v : List Byte} (h : v.length = 6) :
    parseHome (c :: indexByte k :: 0 :: v) = .ok (k, none) := by
  have no : yesNoOf (unLe [(0#8 : Byte)]) = some false := rfl
  simp [parseHome, judged, fieldAt, h, indexOf_indexByte, no]

/-- The operands of SET_SIM are read back within the range of R35, and refused outside it. -/
theorem parseSetSim_bytes (c : Byte) (k : TrackId) {v : Int} (h : -2147483648 ≤ v ∧ v ≤ 2147483647) :
    parseSetSim (c :: indexByte k :: leInt 4 v) =
      if -10000000 ≤ v ∧ v ≤ 10000000 then .ok (k, v) else .error .badValue := by
  have value : toSigned 4 (unLe (List.take 4 (leInt 4 v))) = v := by
    rw [List.take_of_length_le (by simp)]
    exact toSigned_leInt4 h
  by_cases fit : -10000000 ≤ v ∧ v ≤ 10000000 <;>
    simp [parseSetSim, judged, fieldAt, signedAt, withinInt, indexOf_indexByte, value, fit]

/-- HOME on a command whose operands are read, by the source of the track (R16). -/
theorem runHome_eq {s : State} {l : LinkId} {k : TrackId} {p : List Byte} {arm : Option Int}
    (hp : parseHome p = .ok (k, arm)) (ho : trackOwner s k ≠ some (otherLink l)) :
    runHome l p s = if s.tracks[k].cfg.source ≠ .quad then ⟨.wrongSource, [], s⟩
      else ⟨.ok, [], setTrack k (homedTrack s.tracks[k] arm) s⟩ := by
  simp only [runHome, withArgs, hp, onTrack_allowed ho]
  rfl

/-- SET_SIM on a velocity in range, by the source of the track (R35). -/
theorem runSetSim_eq {s : State} {l : LinkId} {k : TrackId} {p : List Byte} {v : Int}
    (hp : parseSetSim p = .ok (k, v)) (ho : trackOwner s k ≠ some (otherLink l)) :
    runSetSim l p s = if s.tracks[k].cfg.source ≠ .sim then ⟨.wrongSource, [], s⟩
      else ⟨.ok, [], setTrack k { s.tracks[k] with simVel := v } s⟩ := by
  simp only [runSetSim, withArgs, hp, onTrack_allowed ho]
  rfl

section
variable {s : State} {l : LinkId} {seq : Byte} {k : TrackId} (hr : Ready l seq s) (ho : trackOwner s k ≠ some (otherLink l))
include hr ho

/-- HOME with its operands read is WRONG_SOURCE without a QUAD source, and else arms or disarms (R16). -/
theorem home_answered {a : List Byte} {arm : Option Int} (hp : parseHome (0x24 :: a) = .ok (k, arm)) (ha : a.length = 8) :
    (s.tracks[k].cfg.source ≠ .quad → Answered (.home l seq a) l seq (0x24 :: a) .wrongSource [] s s) ∧
      (s.tracks[k].cfg.source = .quad →
        Answered (.home l seq a) l seq (0x24 :: a) .ok [] s (setTrack k (homedTrack s.tracks[k] arm) s)) := by
  have owned : ∀ L Q, trackOwner (withLinks L Q s) k ≠ some (otherLink l) := fun _ _ => ho
  have fits : (0x24 :: a).length ≤ Config.maxPayload := by simp [ha, Config.maxPayload]
  refine ⟨fun hs => ?_, fun hs => ?_⟩ <;>
    refine answered_of_effect s l runHome rfl hr (List.cons_ne_nil _ _) fits fun L Q _ _ => ?_
  · rw [runHome_eq hp (owned L Q), withLinks_tracks, if_pos hs]
  · rw [runHome_eq hp (owned L Q), withLinks_tracks, if_neg (not_not_intro hs)]
    rfl

/-- SET_SIM with a 32-bit velocity: BAD_VALUE outside its range, then WRONG_SOURCE without a SIM source, else stored (R35). -/
theorem setSim_answered {v : Int} (hv : -2147483648 ≤ v ∧ v ≤ 2147483647) :
    let a : List Byte := indexByte k :: leInt 4 v
    (¬(-10000000 ≤ v ∧ v ≤ 10000000) → Answered (.setSim l seq a) l seq (0x28 :: a) .badValue [] s s) ∧
      (-10000000 ≤ v ∧ v ≤ 10000000 → s.tracks[k].cfg.source ≠ .sim →
        Answered (.setSim l seq a) l seq (0x28 :: a) .wrongSource [] s s) ∧
      (-10000000 ≤ v ∧ v ≤ 10000000 → s.tracks[k].cfg.source = .sim →
        Answered (.setSim l seq a) l seq (0x28 :: a) .ok [] s (setTrack k { s.tracks[k] with simVel := v } s)) := by
  intro a
  have owned : ∀ L Q, trackOwner (withLinks L Q s) k ≠ some (otherLink l) := fun _ _ => ho
  have fits : (0x28 :: a).length ≤ Config.maxPayload := by simp [a, Config.maxPayload]
  have parsed := parseSetSim_bytes 0x28 k hv
  refine ⟨fun out => ?_, fun fit hs => ?_, fun fit hs => ?_⟩ <;>
    refine answered_of_effect s l runSetSim rfl hr (List.cons_ne_nil _ _) fits fun L Q _ _ => ?_
  · rw [if_neg out] at parsed
    rw [runSetSim, parsed]
    rfl
  · rw [if_pos fit] at parsed
    rw [runSetSim_eq parsed (owned L Q), withLinks_tracks, if_pos hs]
  · rw [if_pos fit] at parsed
    rw [runSetSim_eq parsed (owned L Q), withLinks_tracks, if_neg (not_not_intro hs)]
    rfl

/-- CLEAR_STATS sets the six statistics to 0 (R22). -/
theorem clearStats_answered :
    Answered (.clearStats l seq [indexByte k]) l seq [0x29, indexByte k] .ok [] s
      (setTrack k { s.tracks[k] with stats := ⟨0, 0, 0, 0, 0, 0⟩ } s) := by
  refine answered_of_effect s l runClearStats rfl hr (List.cons_ne_nil _ _) (by simp [Config.maxPayload]) fun L Q _ _ => ?_
  have owner : trackOwner (withLinks L Q s) k ≠ some (otherLink l) := ho
  simp only [runClearStats, parseTrack_index, withArgs, onTrack_allowed owner]
  rfl

end

/-- Settles O19: the operands of each command are read back, and each run answers by the source of the track. -/
theorem homeSimulationAndStatistics : Obligations.HomeSimulationAndStatistics := by
  unfold Obligations.HomeSimulationAndStatistics
  intro s l seq k hr ho t
  refine ⟨fun x hx => ?_, fun v hv => ?_, fun v hlo hhi => ?_, clearStats_answered hr ho⟩
  · exact home_answered hr ho (parseHome_arm 0x24 k hx) (by simp)
  · exact home_answered hr ho (parseHome_disarm 0x24 k hv) (by simp [hv])
  · obtain ⟨bad, wrong, stored⟩ := setSim_answered hr ho ⟨hlo, hhi⟩
    exact ⟨fun h => bad (by omega), fun h1 h2 => wrong ⟨h1, h2⟩, fun h1 h2 => stored ⟨h1, h2⟩⟩

/-! ### What the pins presented at a reset leave alone -/

/-- `t` has the tracks, the CSU and the mark units of `s`. -/
structure SameTracks (s t : State) : Prop where
  tracks : t.tracks = s.tracks
  csu : t.csu = s.csu
  marks : t.marks = s.marks

theorem SameTracks.refl (s : State) : SameTracks s s := ⟨rfl, rfl, rfl⟩

theorem SameTracks.trans {s t u : State} (h : SameTracks s t) (h' : SameTracks t u) : SameTracks s u :=
  ⟨h'.tracks.trans h.tracks, h'.csu.trans h.csu, h'.marks.trans h.marks⟩

theorem SameTracks.foldl {α : Type} {f : State → α → State} (hf : ∀ s a, SameTracks s (f s a)) (as : List α) (s : State) :
    SameTracks s (as.foldl f s) := by
  induction as generalizing s with
  | nil => exact .refl s
  | cons a as ih => exact (hf s a).trans (ih _)

section
variable (s : State) (n : LineId)

theorem raiseRouted_sameTracks (dest : Option LinkId) (r : Report) : SameTracks s (raiseRouted dest r s) :=
  ⟨raiseRouted_tracks .., raiseRouted_csu .., raiseRouted_marks ..⟩

theorem setLoad_sameTracks (u : Load) : SameTracks s (setLoad n u s) := ⟨rfl, rfl, rfl⟩

theorem setSweep_sameTracks (w : Sweep) : SameTracks s (setSweep w s) := ⟨rfl, rfl, rfl⟩

theorem setTransit_sameTracks (w : Transit) : SameTracks s (setTransit w s) := ⟨rfl, rfl, rfl⟩

theorem endPulse_sameTracks : SameTracks s (endPulse n s) := by
  unfold endPulse
  split
  · exact ⟨rfl, rfl, rfl⟩
  · exact .refl s

/-- The effect of an inhibit assertion on a line touches no track (R118). -/
theorem inhibitLine_sameTracks : SameTracks s (inhibitLine s n) := by
  unfold inhibitLine
  split
  · exact (raiseRouted_sameTracks s _ _).trans (endPulse_sameTracks _ n)
  · exact ⟨rfl, rfl, rfl⟩
  · exact .refl s

theorem assertInhibit_sameTracks : SameTracks s (assertInhibit s) := by
  have raised : SameTracks s (raiseInhibit true { s with inhibited := true }) :=
    ⟨raiseInhibit_tracks .., raiseInhibit_csu .., raiseInhibit_marks ..⟩
  unfold assertInhibit
  exact (raised.trans (.foldl inhibitLine_sameTracks allLines _)).trans (setTransit_sameTracks _ _)

theorem latch_sameTracks (kind : FaultKind) : SameTracks s (latch n kind s) := by
  unfold latch
  split
  · exact .refl s
  · exact (setLoad_sameTracks s n _).trans (raiseRouted_sameTracks _ _ _)

theorem forceLine_sameTracks : SameTracks s (forceLine n s) := by
  unfold forceLine
  split
  · exact .refl s
  · exact ⟨rfl, rfl, rfl⟩

theorem latchForcing_sameTracks (kind : FaultKind) : SameTracks s (latchForcing n kind s) := by
  unfold latchForcing
  split
  · exact .refl s
  · exact (latch_sameTracks s n kind).trans (forceLine_sameTracks _ n)

theorem raiseSweepDone_sameTracks : SameTracks s (raiseSweepDone s) := by
  unfold raiseSweepDone
  repeat' split
  · exact raiseRouted_sameTracks _ _ _
  · exact ⟨rfl, rfl, rfl⟩
  · exact raiseRouted_sameTracks _ _ _

theorem endSweep_sameTracks : SameTracks s (endSweep s) :=
  (setSweep_sameTracks s _).trans (raiseSweepDone_sameTracks _)

theorem visitLines_sameTracks (ns : List LineId) : SameTracks s (visitLines ns s) := by
  induction ns generalizing s with
  | nil => exact endSweep_sameTracks s
  | cons n ns ih =>
    rw [visitLines]
    dsimp only
    have visited : ∀ r c, SameTracks s (setResult n r (setSweep { s.sweep with current := c } s)) := fun _ _ => ⟨rfl, rfl, rfl⟩
    split
    · exact (visited _ _).trans (ih _)
    · split
      · exact (visited _ _).trans (ih _)
      · exact ⟨rfl, rfl, rfl⟩

/-- An overload in a probe, with the line's leaving of TEST, touches no track (R126, R135). -/
theorem probeOverload_sameTracks : SameTracks s (probeOverload n s) := by
  have ended : ∀ t, SameTracks t (endProbeAtLine n t) := fun t => by
    unfold endProbeAtLine
    split
    · exact ⟨rfl, rfl, rfl⟩
    · exact .refl t
  have forced : ∀ t, SameTracks t (forceProbedLine n t) := fun t => by
    unfold forceProbedLine
    split
    · exact ⟨rfl, rfl, rfl⟩
    · exact forceLine_sameTracks t n
  unfold probeOverload
  split
  · have stopped : SameTracks s (setView n .inactive (stopProbe (setResult n .overload s))) := ⟨rfl, rfl, rfl⟩
    refine (stopped.trans ?_).trans (visitLines_sameTracks _ _)
    split
    · exact ended _
    · exact (latch_sameTracks _ n _).trans (forced _)
  · exact latchForcing_sameTracks s n _

/-- A moment of judgement touches no track (R124 to R127). -/
theorem judge_sameTracks : SameTracks s (judge n s) := by
  unfold judge
  split
  · exact latchForcing_sameTracks s n _
  · split
    · exact latch_sameTracks s n _
    · exact .refl s
  · exact probeOverload_sameTracks s n
  · exact latchForcing_sameTracks s n _
  · exact .refl s

end

/-- A full reset leaves the tracks, the CSU and the mark units at their reset values, whatever the pins present (R6, R48, R80). -/
theorem fullReset_sameTracks (cause : ResetCause) (s : State) :
    SameTracks (State.afterReset cause s.pins s.now s.pending) (fullReset cause s) := by
  have inhibited : ∀ t, SameTracks t (inhibitAtReset t) := fun t => by
    unfold inhibitAtReset
    split
    · exact assertInhibit_sameTracks t
    · exact .refl t
  unfold fullReset senseAtReset
  exact (inhibited _).trans (.foldl judge_sameTracks allLines _)

/-! ### The ends of an accepted RESET (R150, R156) -/

/-- A full reset reads the pins, the time and the queue of commands, and nothing else. -/
theorem fullReset_congr (cause : ResetCause) {s t : State} (hpins : t.pins = s.pins) (hnow : t.now = s.now)
    (hpending : t.pending = s.pending) : fullReset cause t = fullReset cause s := by
  rw [fullReset, hpins, hnow, hpending, fullReset]

section
variable (s : State) (l : LinkId)

theorem fullReset_kick (cause : ResetCause) : fullReset cause (kick s) = fullReset cause s := by
  obtain ⟨-, -, -, -, -, -, -, -, -, -, -, -, hpins, hnow, hpending⟩ := device_fields (kick_device s)
  exact fullReset_congr cause hpins hnow hpending

/-- LINK0 chooses no frame for a link that is LINK1, sends one, or waits for its baud rate (R148, R152). -/
theorem linkOn_kick_of_held (h : l = .link1 ∨ (linkOn s l).outbound ≠ none ∨ baudHolds s l = true) :
    linkOn (kick s) l = linkOn s l := by
  cases l with
  | link1 =>
    obtain ⟨L, Q, e, -, -⟩ := pump_frame s .link0
    rw [kick, e]
    rfl
  | link0 =>
    have stays : kick s = s := (kick_begun s).stays <| by
      rcases h with h | h | h
      · cases h
      · exact .inl h
      · exact .inr (.inl (by simpa [baudHolds, rateWaits, and_assoc] using h))
    rw [stays]

/-- The end of the command of a link in its reset wait is a full reset (R156). -/
theorem endCurrent_resets (h : (linkOn s l).resetWait = true) : endCurrent l s = fullReset .command s := by
  have same : releaseBaud l s = s ∨ releaseBaud l s = { s with baud := { s.baud with awaiting := none } } := by
    unfold releaseBaud
    split
    · exact .inr rfl
    · exact .inl rfl
  have waits : (linkOn (releaseBaud l s) l).resetWait = true := by rcases same with e | e <;> rw [e] <;> exact h
  rw [endCurrent, if_pos waits]
  rcases same with e | e <;> rw [e]
  rfl

/-- The reply of an accepted RESET, sent to its last byte, ends in a full reset (R156). -/
theorem replySent_resets (h : resetReplySent l s) : replySent l s = kick (fullReset .command s) := by
  obtain ⟨hw, ⟨kind, bytes, sent⟩, ho, hk, hs⟩ := h
  have hk : kind = .reply := hk
  subst hk
  have kept : linkOn (kick s) l = linkOn s l := linkOn_kick_of_held s l (.inr (.inl (by simp [ho])))
  have finished : finishReply l (kick s) = fullReset .command s := by
    rw [finishReply, kept, endCurrent_resets _ _ (by simpa using hw)]
    exact fullReset_kick s .command
  simp only [replySent, kept, ho, hs, if_true, finished]

/-- A duplicate taken at the loss of a link leaves a reset wait and a pending reply as they are (R147, R156). -/
theorem settleDuplicate_keeps_reset (hw : (linkOn s l).resetWait = true) (hp : (linkOn s l).replyPending = true) :
    (linkOn (settleDuplicate l s) l).resetWait = true ∧ (linkOn (settleDuplicate l s) l).replyPending = true ∧
      fullReset .command (settleDuplicate l s) = fullReset .command s := by
  unfold settleDuplicate
  repeat' split
  · exact ⟨by simp [takeDuplicate, Link.answered, hw], by simp [takeDuplicate, Link.answered], rfl⟩
  · exact ⟨hw, hp, rfl⟩
  · exact ⟨hw, hp, rfl⟩

/-- The loss of a link whose RESET reply has not begun drops the reply, and ends in a full reset (R150, R156, log 28). -/
theorem linkLoss_resets (h : resetReplyDropped l s) : linkLoss l s = kick (fullReset .command s) := by
  obtain ⟨hup, htimer, hw, hp, hheld⟩ := h
  have kept : linkOn (kick s) l = linkOn s l := linkOn_kick_of_held s l hheld
  obtain ⟨hw', hp', same⟩ := settleDuplicate_keeps_reset (kick s) l (by rw [kept]; exact hw) (by rw [kept]; exact hp)
  have lost : loseLink l (kick s) = fullReset .command s := by
    have waits : (linkOn (setQueue l (queueOn (settleDuplicate l (kick s)) l).purge
        (setLink l (lostLink (linkOn (settleDuplicate l (kick s)) l)) (settleDuplicate l (kick s)))) l).resetWait = true := by
      simp [lostLink, hw']
    rw [loseLink, hp', waits, Bool.and_self, if_pos rfl, endCurrent_resets _ _ waits]
    exact same.trans (fullReset_kick s .command)
  have fires : (linkOn s l).state = .up ∧ (linkOn s l).supervision.isSome = true :=
    ⟨hup, Option.isSome_iff_ne_none.2 htimer⟩
  simp only [linkLoss, kept, if_pos fires, lost]

/-- A RESET that is executed after the loss of its link drops its reply as it is formed, and ends in a full reset (R150, R156). -/
theorem reset_resets {seq : Byte} (h : resetOrphaned l seq s) :
    hostCommand runReset l seq [0x07] s = kick (fullReset .command s) := by
  obtain ⟨⟨⟨seq', payload, resumes⟩, executed, orphan⟩, hc, rfl, rfl, rfl, rfl, hfree⟩ := h
  have current : (linkOn (kick s) l).current = _ := (apart_fields (kick_link s l)).2.2.2.1.trans hc
  have waiting : isWaiting l seq' [0x07] (kick s) = true := by simp [isWaiting, current]
  have arrived : present l seq' [0x07] (kick s) = kick s := by rw [present, waiting]; rfl
  have orphaned : isOrphan l (kick s) = true := by simp [isOrphan, current]
  have free : otherOwnsAny l (kick s) = false := by
    have claims : (kick s).claims = s.claims := (device_fields (kick_device s)).2.2.2.2.2.2.2.2.2.2.1
    simp only [otherOwnsAny, claims, List.any_eq_false, heldByOther_eq, decide_eq_true_eq]
    intro c hc
    obtain ⟨r, hr, rfl⟩ := Vector.getElem_of_mem (Vector.mem_toList_iff.1 hc)
    exact hfree ⟨r, hr⟩
  have accepted : runReset l [0x07] (kick s) = done (setLink l { linkOn (kick s) l with resetWait := true } (kick s)) := by
    simp only [runReset, parseNone_code, withArgs, free]
    rfl
  have dropped : execute runReset l seq' [0x07] (kick s) = fullReset .command s := by
    have still : isOrphan l (setLink l { linkOn (kick s) l with resetWait := true } (kick s)) = true := by
      simp [isOrphan, current]
    have waits : (linkOn (setLink l { linkOn (kick s) l with resetWait := true } (kick s)) l).resetWait = true := by simp
    rw [execute, orphaned, Bool.not_true, Bool.and_false, accepted, if_neg Bool.false_ne_true, reply, done, if_pos still,
      endCurrent_resets _ _ waits]
    exact fullReset_kick s .command
  simp only [hostCommand, arrived, waiting, if_true, dropped]

end

/-- Every reset is the full reset of its cause; behind that of a RESET command LINK0 chooses its next frame (R6, R150, R156). -/
theorem ResetsTo.eq_fullReset {cause : ResetCause} {s t : State} (h : ResetsTo cause s t) :
    t = if cause = .command then kick (fullReset cause s) else fullReset cause s := by
  have next : ∀ {i : Instr} {x : State}, exec i s = .next t → exec i s = .next x → t = x :=
    fun e e' => Host.Outcome.next.inj (e.symm.trans e')
  cases cause with
  | power => exact (next h rfl).trans (if_neg ResetCause.noConfusion).symm
  | pin => exact (next h rfl).trans (if_neg ResetCause.noConfusion).symm
  | command =>
    rw [if_pos rfl]
    obtain ⟨l, ⟨hr, he⟩ | ⟨hr, he⟩ | ⟨seq, hr, he⟩⟩ := h
    · exact (next he rfl).trans (replySent_resets s l hr)
    · exact (next he rfl).trans (linkLoss_resets s l hr)
    · exact (next he rfl).trans (reset_resets s l hr)

/-- What a reset leaves of the tracks, the CSU and the mark units (R6, R48, R80). -/
theorem ResetsTo.sameTracks {cause : ResetCause} {s t : State} (h : ResetsTo cause s t) :
    SameTracks (State.afterReset cause s.pins s.now s.pending) t := by
  rw [h.eq_fullReset]
  split
  · obtain ⟨ht, hc, hm, -⟩ := device_fields (kick_device (fullReset cause s))
    exact (fullReset_sameTracks cause s).trans ⟨ht, hc, hm⟩
  · exact fullReset_sameTracks cause s

/-- Settles O2: every reset is a full reset, which leaves the tracks, the CSU and the mark units at their reset values. -/
theorem resetLeavesTracksAtRest : Obligations.ResetLeavesTracksAtRest := by
  unfold Obligations.ResetLeavesTracksAtRest
  refine ⟨fun s => ⟨⟨_, rfl⟩, ⟨_, rfl⟩⟩, fun cause s t h k => ?_⟩
  obtain ⟨ht, hc, hm⟩ := h.sameTracks
  have track : t.tracks[k] = .reset := by rw [ht]; exact Vector.getElem_replicate _
  have schedule : t.csu.schedules[k] = [] := by rw [hc]; exact Vector.getElem_replicate _
  have mark : t.marks[k] = .reset := by rw [hm]; exact Vector.getElem_replicate _
  refine ⟨track, schedule, by rw [mark]; rfl, ?_⟩
  rw [taPin, taDriven, track]
  rfl

end Sys2Proof.Machine
end

section
/-! SUPPORT. The statement about the inhibit condition: what an assertion does to each line, and to all of them in order (06). -/

namespace Sys2Proof.Machine

/-! ### The effect of an inhibit assertion -/

/-- The records on their way to the queues after one more was routed (R171, R174). -/
def routed (dest : Option LinkId) (r : Report) (q : PerLink (List Report)) : PerLink (List Report) :=
  match dest with
  | some l => q.put l (q.at_ l ++ [r])
  | none => q

/-- The records on their way after the one of line n, whose pulse an inhibit assertion ends, was routed as in `s` (R118, step 2). -/
def cutQueue (s : State) (q : PerLink (List Report)) (n : LineId) : PerLink (List Report) :=
  routed (routeOwned s (lineOwner s n)) (.pulseTruncated n .inhibit) q

/-- A line after an inhibit assertion: a pulse is over, a probe is left, and any other line is as it was (R118, R111). -/
def inhibitedLine (now : Nat) (u : Line) : Line :=
  match u.state, u.pulse with
  | .on, some p => rested now u p
  | .test, _ => { u with state := .off }
  | _, _ => u

/-- What a line in this state tells the LSV at an inhibit assertion (R118, R124, R136). -/
def inhibitNotices : LineState → List LoadNotice
  | .on => [.ended]
  | .test => [.abandoned .inhibit]
  | _ => []

/-- `s` after an inhibit assertion has reached these lines. -/
def inhibitedLines (s : State) (ns : List LineId) : State :=
  { s with
    lines := Vector.ofFn fun n => if n ∈ ns then inhibitedLine s.now s.lines[n] else s.lines[n]
    transit := { s.transit with
      toQueue := (ns.filter fun n => s.lines[n].state = .on).foldl (cutQueue s) s.transit.toQueue
      toLsv := Vector.ofFn fun n =>
        if n ∈ ns then s.transit.toLsv[n] ++ inhibitNotices s.lines[n].state else s.transit.toLsv[n] } }

section
variable (s : State) (n : LineId)

theorem raiseRouted_eq_routed (dest : Option LinkId) (r : Report) :
    raiseRouted dest r s = setTransit { s.transit with toQueue := routed dest r s.transit.toQueue } s := by
  cases dest <;> rfl

theorem raiseUnlessLost_eq_routed (l : LinkId) (r : Report) :
    raiseUnlessLost l r s =
      setTransit { s.transit with toQueue := routed (if isLost s l then none else some l) r s.transit.toQueue } s := by
  unfold raiseUnlessLost
  split <;> rfl

/-- A vector changed at the places of a list, and then at one more place. -/
theorem set_ofFn_ite_mem {α : Type} {m : Nat} (f g : Fin m → α) (ns : List (Fin m)) (n : Fin m) :
    (Vector.ofFn fun j => if j ∈ ns then f j else g j).set n (f n) =
      Vector.ofFn fun j => if j ∈ ns ++ [n] then f j else g j := by
  ext j hj
  by_cases e : n = ⟨j, hj⟩
  · subst e; simp
  · have e' : n.val ≠ j := fun h => e (Fin.ext h)
    simp [e', Ne.symm e]

/-- What an inhibit assertion does to one line, which has a pulse exactly in ON (R118). -/
theorem inhibitLine_eq (h : s.lines[n].pulse.isSome = true ↔ s.lines[n].state = .on) :
    inhibitLine s n = { s with
      lines := s.lines.set n (inhibitedLine s.now s.lines[n])
      transit := { s.transit with
        toQueue := if s.lines[n].state = .on then cutQueue s s.transit.toQueue n else s.transit.toQueue
        toLsv := s.transit.toLsv.set n (s.transit.toLsv[n] ++ inhibitNotices s.lines[n].state) } } := by
  unfold inhibitLine inhibitedLine
  cases hs : s.lines[n].state with
  | on =>
    obtain ⟨p, hp⟩ := Option.isSome_iff_exists.mp (h.mpr hs)
    simp only [truncatePulse_eq s n .inhibit p hp, cutShort, raiseRouted_eq_routed, hp]
    rfl
  | test => rfl
  | disabled | off | holdoff | fault => simp only [inhibitNotices, List.append_nil, set_getElem_same, reduceCtorEq, if_false]

/-- One more line, which has a pulse exactly in ON and which none of those before it has touched. -/
theorem inhibitLine_inhibitedLines {ns : List LineId} (hn : n ∉ ns)
    (h : s.lines[n].pulse.isSome = true ↔ s.lines[n].state = .on) :
    inhibitLine (inhibitedLines s ns) n = inhibitedLines s (ns ++ [n]) := by
  have line : (inhibitedLines s ns).lines[n] = s.lines[n] := by simp [inhibitedLines, hn]
  have told : (inhibitedLines s ns).transit.toLsv[n] = s.transit.toLsv[n] := by simp [inhibitedLines, hn]
  have queue : (ns ++ [n]).filter (fun n => s.lines[n].state = .on) =
      ns.filter (fun n => s.lines[n].state = .on) ++ if s.lines[n].state = .on then [n] else [] := by
    simp only [List.filter_append, List.filter_singleton, Bool.cond_decide]
  rw [inhibitLine_eq _ _ (by rw [line]; exact h), line, told]
  simp only [inhibitedLines, set_ofFn_ite_mem, queue, List.foldl_append]
  split <;> rfl

/-- An inhibit assertion reaches lines one after another, each untouched by those before it (R118). -/
theorem foldl_inhibitLine (h : ∀ n : LineId, s.lines[n].pulse.isSome = true ↔ s.lines[n].state = .on)
    (ns : List LineId) (hd : ns.Nodup) : ns.foldl inhibitLine s = inhibitedLines s ns := by
  induction ns using List.reverseRecOn with
  | nil => simp [inhibitedLines]
  | append_singleton ns n ih =>
    obtain ⟨hns, -, hn⟩ := List.nodup_append.mp hd
    have fresh : n ∉ ns := fun hmem => hn n hmem n (List.mem_singleton_self n) rfl
    rw [List.foldl_append, ih hns, List.foldl_cons, List.foldl_nil, inhibitLine_inhibitedLines s n fresh (h n)]

/-- The records raised for the lines in ON, read off the queues (R118). -/
theorem foldl_cut_toQueue (ns : List LineId) (u : State) :
    (ns.foldl (fun u n => raiseRouted (routeOwned s (lineOwner s n)) (.pulseTruncated n .inhibit) u) u).transit.toQueue =
      ns.foldl (cutQueue s) u.transit.toQueue := by
  induction ns generalizing u with
  | nil => rfl
  | cons n ns ih => rw [List.foldl_cons, ih, raiseRouted_eq_routed]; rfl

/-- An inhibit assertion raises its records, reaches every line in order, and tells the LSV (R118, R136). -/
theorem assertInhibit_eq (h : ∀ n : LineId, s.lines[n].pulse.isSome = true ↔ s.lines[n].state = .on) :
    assertInhibit s =
      let t := inhibitedLines (raiseInhibit true { s with inhibited := true }) allLines
      setTransit { t.transit with inhibitLsv := true } t := by
  rw [assertInhibit, foldl_inhibitLine _ (by simpa using h) allLines nodup_allLines]

end

/-- Settles O37: a level that is held and a fall leave the lines, and a rise reaches each of them in order. -/
theorem inhibitFollowsThePin : Obligations.InhibitFollowsThePin := by
  unfold Obligations.InhibitFollowsThePin
  intro s hp shown sent cut
  have rise : exec .inhibitAssertion s = .next (inhibitAssertion s) := rfl
  have fall : exec .inhibitRelease s = .next (inhibitRelease s) := rfl
  refine ⟨fun hi => ?held, fun hi => ?free, fun hi => ?released, fun hi => ?asserted⟩
  case held => rw [rise, inhibitAssertion, if_pos hi]
  case free => rw [fall, inhibitRelease, if_neg (by simp [hi])]
  case released => rw [fall, inhibitRelease, if_pos hi]; rfl
  case asserted =>
    have queue : cut.transit.toQueue = ((List.finRange 16).filter fun n => s.lines[n].state = .on).foldl (cutQueue s)
        (sent true s).transit.toQueue := foldl_cut_toQueue s _ _
    have finRange : List.finRange 16 = allLines := by decide
    rw [rise, inhibitAssertion, if_neg (by simp [hi]), assertInhibit_eq (shown true) hp, queue, finRange]
    simp only [inhibitedLines, mem_allLines, if_true, raiseInhibit, raiseUnlessLost_eq_routed, sent]
    rfl

end Sys2Proof.Machine
end

section
/-! SUPPORT. The statement about the Claim Table: what CLAIM, RELEASE and QUERY_CLAIMS answer by the owner of the entry (09). -/

namespace Sys2Proof.Machine

/-! ### The runs of the claim commands -/

section
variable (s : State) (l : LinkId) (c : Byte) (r : Fin 20)

/-- CLAIM of an entry that the other link does not own, from a link that is UP, grants it (R158). -/
theorem runClaim_granted (p : LossPolicy) (ho : s.claims[r].owner ≠ some (otherLink l)) (up : (linkOn s l).state = .up) :
    runClaim l [c, indexByte r, p.code] s = ⟨.ok, [ownerCode (some l), p.code], setClaim r ⟨some l, p⟩ s⟩ := by
  have free : ¬heldByOther l s.claims[r].owner = true := by simpa [heldByOther_eq] using ho
  simp only [runClaim, parseClaim_index, withArgs, if_neg free, if_pos up, Claim.bytes]

/-- CLAIM of an entry of the other link shows that entry and changes nothing (R158). -/
theorem runClaim_held (p : LossPolicy) (ho : s.claims[r].owner = some (otherLink l)) :
    runClaim l [c, indexByte r, p.code] s = ⟨.heldByOther, s.claims[r].bytes, s⟩ := by
  have held : heldByOther l s.claims[r].owner = true := by simpa [heldByOther_eq] using ho
  simp only [runClaim, parseClaim_index, withArgs, if_pos held]

/-- RELEASE frees an entry of the sender and is refused for any other (R159). -/
theorem runRelease_eq :
    runRelease l [c, indexByte r] s =
      if s.claims[r].owner = some l then done (setClaim r .free s) else refuse .notOwner s := by
  simp only [runRelease, parseResource_index, withArgs]

/-- QUERY_CLAIMS reads every entry in resource-number order (R160). -/
theorem runQueryClaims_eq :
    runQueryClaims l [c] s =
      ⟨.ok, (List.finRange 20).flatMap fun r => [ownerCode s.claims[r].owner, s.claims[r].policy.code], s⟩ := by
  have order : List.finRange 20 = allResources := by decide
  simp only [runQueryClaims, parseNone_code, withArgs, report, Claim.bytes, order]

end

/-! ### The claim commands on a ready link -/

section
variable {s : State} {l : LinkId} {seq : Byte} (hr : Ready l seq s) (r : Fin 20)
include hr

/-- QUERY_CLAIMS needs no owner and leaves the Claim Table as it is (R160). -/
theorem queryClaims_answered :
    Answered (.queryClaims l seq []) l seq [0x12] .ok
      ((List.finRange 20).flatMap fun r => [ownerCode s.claims[r].owner, s.claims[r].policy.code]) s s :=
  answered_of_effect s l runQueryClaims rfl hr (List.cons_ne_nil _ _) (by simp [Config.maxPayload]) fun L Q _ _ =>
    runQueryClaims_eq (withLinks L Q s) l 0x12

/-- CLAIM is decided by whether the other link owns the entry: its own frame has made the sender UP (R158, R163). -/
theorem claim_answered (p : LossPolicy) :
    let a : List Byte := [indexByte r, p.code]
    (s.claims[r].owner ≠ some (otherLink l) →
        Answered (.claim l seq a) l seq (0x10 :: a) .ok [ownerCode (some l), p.code] s (setClaim r ⟨some l, p⟩ s)) ∧
      (s.claims[r].owner = some (otherLink l) →
        Answered (.claim l seq a) l seq (0x10 :: a) .heldByOther
          [ownerCode s.claims[r].owner, s.claims[r].policy.code] s s) := by
  intro a
  have fits : (0x10 :: a).length ≤ Config.maxPayload := by simp [a, Config.maxPayload]
  refine ⟨fun ho => ?granted, fun ho => ?held⟩ <;>
    refine answered_of_effect s l runClaim rfl hr (List.cons_ne_nil _ _) fits fun L Q up _ => ?_
  case granted => exact runClaim_granted (withLinks L Q s) l 0x10 r p ho up
  case held => exact runClaim_held (withLinks L Q s) l 0x10 r p ho

/-- RELEASE is decided by whether the sender owns the entry (R159). -/
theorem release_answered :
    (s.claims[r].owner = some l →
        Answered (.release l seq [indexByte r]) l seq [0x11, indexByte r] .ok [] s (setClaim r .free s)) ∧
      (s.claims[r].owner ≠ some l →
        Answered (.release l seq [indexByte r]) l seq [0x11, indexByte r] .notOwner [] s s) := by
  refine ⟨fun ho => ?own, fun ho => ?other⟩ <;>
    refine answered_of_effect s l runRelease rfl hr (List.cons_ne_nil _ _) (by simp [Config.maxPayload]) fun L Q _ _ => ?_
  case own =>
    rw [runRelease_eq, withLinks_claims, if_pos ho]
    rfl
  case other =>
    rw [runRelease_eq, withLinks_claims, if_neg ho]
    rfl

end

/-- Settles O54: the answer of each command is read off the owner of the entry, which the arrival of its frame leaves. -/
theorem claimsAreGrantedAndReleased : Obligations.ClaimsAreGrantedAndReleased := by
  unfold Obligations.ClaimsAreGrantedAndReleased
  intro s l seq hr
  refine ⟨queryClaims_answered hr, fun r => ?_⟩
  obtain ⟨own, other⟩ := release_answered hr r
  exact ⟨claim_answered hr r, own, other⟩

end Sys2Proof.Machine
end
section
/-! SUPPORT. What every operation keeps: the four conditions of every reached state (R41, R100, R157, R173), as one relation between
the state before an operation and the state after it. -/

namespace Sys2Proof.Machine

-- One proof at a time: proofs elaborated side by side would hold a thread each, and its stack.
set_option Elab.async false

/-! ### The relation -/

/-- From `s` to `t` each of the four conditions is kept. -/
structure Keeps (s t : State) : Prop where
  lines : LinesSound s → LinesSound t
  tracks : TracksSound s → TracksSound t
  sizes : SizesSound s → SizesSound t
  claims : ClaimsSound s → ClaimsSound t

theorem Keeps.refl (s : State) : Keeps s s := ⟨id, id, id, id⟩

theorem Keeps.trans {s t u : State} (h : Keeps s t) (h' : Keeps t u) : Keeps s u :=
  ⟨h'.lines ∘ h.lines, h'.tracks ∘ h.tracks, h'.sizes ∘ h.sizes, h'.claims ∘ h.claims⟩

/-- A fold of operations that each keep the conditions. -/
theorem Keeps.foldl {α : Type} {f : State → α → State} (hf : ∀ s a, Keeps s (f s a)) (as : List α) (s : State) :
    Keeps s (as.foldl f s) := by
  induction as generalizing s with
  | nil => exact .refl s
  | cons a as ih => exact (hf s a).trans (ih _)

/-- A report queue is within its size, and accepts and holds records only while its link is not LOST (R173). -/
def queueSound (lost : Bool) (q : Queue) : Prop :=
  q.records.length ≤ Config.queueSize ∧ q.accepting = !lost ∧ (lost = true → q.records = [])

/-! What each condition reads -/

theorem LinesSound.congr {s t : State} (hi : t.inhibited = s.inhibited) (hl : t.lines = s.lines) :
    LinesSound s → LinesSound t := by
  intro h n; rw [hi, hl]; exact h n

theorem TracksSound.congr {s t : State} (ht : t.tracks = s.tracks) (hc : t.csu.schedules = s.csu.schedules)
    (hm : t.marks = s.marks) : TracksSound s → TracksSound t := by
  intro h k; rw [ht, hc, hm]; exact h k

theorem SizesSound.congr {s t : State} (ht : t.tracks = s.tracks) (hc : t.csu.schedules = s.csu.schedules)
    (hl : t.links = s.links) (hq : t.queues = s.queues) : SizesSound s → SizesSound t := by
  have count : ∀ k, cueCount t k = cueCount s k := fun k => by simp only [cueCount, hc]
  intro h
  simpa only [SizesSound, pendingCues, count, ht, queueOn, isLost, hl, hq] using h

theorem ClaimsSound.congr {s t : State} (hc : t.claims = s.claims) (hl : t.links = s.links) :
    ClaimsSound s → ClaimsSound t := by
  intro h
  simpa only [ClaimsSound, linkOn, hc, hl] using h

/-- An operation that leaves what the four conditions read. -/
theorem Keeps.same {s t : State} (hi : t.inhibited = s.inhibited := by rfl) (hl : t.lines = s.lines := by rfl)
    (ht : t.tracks = s.tracks := by rfl) (hs : t.csu.schedules = s.csu.schedules := by rfl)
    (hm : t.marks = s.marks := by rfl) (hk : t.links = s.links := by rfl) (hq : t.queues = s.queues := by rfl)
    (hc : t.claims = s.claims := by rfl) : Keeps s t :=
  ⟨.congr hi hl, .congr ht hs hm, .congr ht hs hk hq, .congr hc hk⟩

section
variable (s : State)

/-! ### Updates that the conditions do not read -/

theorem setTransit_keeps (w : Transit) : Keeps s (setTransit w s) := .same

theorem setLoad_keeps (n : LineId) (u : Load) : Keeps s (setLoad n u s) := .same

theorem setSweep_keeps (w : Sweep) : Keeps s (setSweep w s) := .same

theorem setEvaluation_keeps (e : Option Evaluation) : Keeps s (setEvaluation e s) := .same

theorem setMode_keeps (k : TrackId) (m : EvalMode) : Keeps s (setMode k m s) := .same

theorem setTaken_keeps (k : TrackId) (x : Int) : Keeps s (setTaken k x s) := .same

theorem raiseRouted_keeps (dest : Option LinkId) (r : Report) : Keeps s (raiseRouted dest r s) := by
  obtain ⟨q, h⟩ := raiseRouted_frame s dest r
  rw [h]
  exact setTransit_keeps s _

theorem raiseTrack_keeps (k : TrackId) (r : Report) : Keeps s (raiseTrack k r s) := raiseRouted_keeps s _ r

theorem raiseLine_keeps (n : LineId) (r : Report) : Keeps s (raiseLine n r s) := raiseRouted_keeps s _ r

theorem raiseUnowned_keeps (r : Report) : Keeps s (raiseUnowned r s) := raiseRouted_keeps s _ r

theorem raiseUnlessLost_keeps (l : LinkId) (r : Report) : Keeps s (raiseUnlessLost l r s) := by
  obtain ⟨q, h⟩ := raiseUnlessLost_frame s l r
  rw [h]
  exact setTransit_keeps s _

theorem raiseInhibit_keeps (b : Bool) : Keeps s (raiseInhibit b s) :=
  (raiseUnlessLost_keeps s _ _).trans (raiseUnlessLost_keeps _ _ _)

/-- Telling the DISTANCE pulses of a track changes only what is on its way (R3). -/
theorem tellDistanceLines_keeps (k : TrackId) (m : LineNotice) : Keeps s (tellDistanceLines k m s) := by
  rw [tellDistanceLines_eq]
  exact setTransit_keeps s _

/-! ### One unit replaced -/

/-- A line unit is replaced by one that is sound if the old one was. -/
theorem setLine_keeps (n : LineId) (u : Line)
    (h : lineSound s.inhibited s.lines[n] = true → lineSound s.inhibited u = true) : Keeps s (setLine n u s) where
  lines hs m := by
    show lineSound s.inhibited (s.lines.set n u)[m] = true
    rw [getElem_set]
    split
    · exact h (hs n)
    · exact hs m
  tracks := .congr rfl rfl rfl
  sizes := .congr rfl rfl rfl rfl
  claims := .congr rfl rfl

/-- A track unit is replaced by one that is sound if the old one was, DISABLED only if the old one was, and whose schedule limit
still covers its cues. -/
theorem setTrack_keeps (k : TrackId) (u : Track) (h : trackSound s.tracks[k] = true → trackSound u = true)
    (hd : u.state = .disabled → s.tracks[k].state = .disabled)
    (hlimit : cueCount s k ≤ s.tracks[k].cfg.scheduleLimit → cueCount s k ≤ u.cfg.scheduleLimit) :
    Keeps s (setTrack k u s) where
  lines := .congr rfl rfl
  tracks hs j := by
    show trackSound (s.tracks.set k u)[j] = true ∧ ((s.tracks.set k u)[j].state = .disabled → _)
    rw [getElem_set]
    split
    · rename_i e
      subst e
      exact ⟨h (hs k).1, fun hu => (hs k).2 (hd hu)⟩
    · exact hs j
  sizes := by
    rintro ⟨pool, limits, queues⟩
    refine ⟨pool, fun j => ?_, queues⟩
    show cueCount s j ≤ (s.tracks.set k u)[j].cfg.scheduleLimit
    rw [getElem_set]
    split
    · rename_i e
      subst e
      exact hlimit (limits k)
    · exact limits j
  claims := .congr rfl rfl

/-- A mark unit is replaced; that of a DISABLED track stays OFF. -/
theorem setMark_keeps (k : TrackId) (m : Mark)
    (h : s.tracks[k].state = .disabled → s.marks[k].state = .off → m.state = .off) : Keeps s (setMark k m s) where
  lines := .congr rfl rfl
  tracks hs j := by
    obtain ⟨sound, empty⟩ := hs j
    refine ⟨sound, fun hd => ⟨(empty hd).1, ?_⟩⟩
    show (s.marks.set k m)[j].state = .off
    rw [getElem_set]
    split
    · rename_i e
      subst e
      exact h hd (empty hd).2
    · exact (empty hd).2
  sizes := .congr rfl rfl rfl rfl
  claims := .congr rfl rfl

/-- A link interface is replaced by one in the same link state. -/
theorem setLink_keeps (l : LinkId) (u : Link) (h : u.state = (linkOn s l).state) : Keeps s (setLink l u s) where
  lines := .congr rfl rfl
  tracks := .congr rfl rfl rfl
  sizes := by
    have lost : ∀ m, isLost (setLink l u s) m = isLost s m := by
      refine both_links l ?_ ?_
      · simp [isLost_eq, h]
      · simp [isLost_eq]
    rintro ⟨pool, limits, queues⟩
    refine ⟨pool, limits, fun m => ?_⟩
    rw [lost]
    exact queues m
  claims := by
    have state : ∀ m, (linkOn (setLink l u s) m).state = (linkOn s m).state := by
      refine both_links l ?_ ?_
      · simp [h]
      · simp
    intro hs r
    refine ⟨fun m hm => ?_, (hs r).2⟩
    rw [state]
    exact (hs r).1 m hm

/-- A report queue is replaced by one that is sound if the old one was. -/
theorem setQueue_keeps (l : LinkId) (q : Queue) (h : ∀ lost, queueSound lost (queueOn s l) → queueSound lost q) :
    Keeps s (setQueue l q s) where
  lines := .congr rfl rfl
  tracks := .congr rfl rfl rfl
  sizes := by
    rintro ⟨pool, limits, queues⟩
    refine ⟨pool, limits, both_links l ?_ ?_⟩
    · rw [queueOn_setQueue_same]
      exact h _ (queues l)
    · rw [queueOn_setQueue_other]
      exact queues (otherLink l)
  claims := .congr rfl rfl

/-- A claim is replaced by one that is free or held by a link that is UP. -/
theorem setClaim_keeps (r : Fin 20) (c : Claim) (h : c = .free ∨ ∃ l, c.owner = some l ∧ (linkOn s l).state = .up) :
    Keeps s (setClaim r c s) where
  lines := .congr rfl rfl
  tracks := .congr rfl rfl rfl
  sizes := .congr rfl rfl rfl rfl
  claims hs j := by
    show (∀ m, (s.claims.set r c)[j].owner = some m → (linkOn s m).state = .up) ∧
      ((s.claims.set r c)[j].owner = none → (s.claims.set r c)[j].policy = .keep)
    rw [getElem_set]
    split
    · rcases h with rfl | ⟨l, ho, hup⟩
      · exact ⟨fun m hm => (nomatch hm), fun _ => rfl⟩
      · refine ⟨fun m hm => ?_, fun hn => ?_⟩
        · rw [ho] at hm
          cases hm
          exact hup
        · rw [ho] at hn
          cases hn
    · exact hs j

/-- The CSU is replaced by one with schedules no longer than before. -/
theorem setCsu_keeps {t : State} (c : Csu) (ht : t = { s with csu := c })
    (h : ∀ k : TrackId, c.schedules[k].length ≤ s.csu.schedules[k].length) : Keeps s t := by
  subst ht
  refine ⟨.congr rfl rfl, fun hs k => ⟨(hs k).1, fun hd => ⟨?_, ((hs k).2 hd).2⟩⟩, ?_, .congr rfl rfl⟩
  · have empty : s.csu.schedules[k] = [] := ((hs k).2 hd).1
    have := h k
    rw [empty] at this
    exact List.eq_nil_of_length_eq_zero (Nat.le_zero.1 this)
  · rintro ⟨pool, limits, queues⟩
    refine ⟨le_trans ?_ pool, fun k => (h k).trans (limits k), queues⟩
    have h0 := h 0
    have h1 := h 1
    have h2 := h 2
    have h3 := h 3
    simp only [pendingCues, cueCount]
    omega

/-- A schedule is replaced by one that is no longer. -/
theorem setSchedule_keeps (k : TrackId) (cs : List Cue) (h : cs.length ≤ s.csu.schedules[k].length) :
    Keeps s (setSchedule k cs s) := by
  refine setCsu_keeps s _ rfl fun j => ?_
  show (s.csu.schedules.set k cs)[j].length ≤ _
  rw [getElem_set]
  split
  · rename_i e
    subst e
    exact h
  · exact le_refl _

end

end Sys2Proof.Machine
end
section
/-! SUPPORT. The operations of the line units, the Load Supervisor and a reset keep the four conditions (06, 07). -/

namespace Sys2Proof.Machine

-- One proof at a time: proofs elaborated side by side would hold a thread each, and its stack.
set_option Elab.async false

/-- What a sound line unit is, condition by condition. -/
theorem lineSound_iff (inhibited : Bool) (u : Line) :
    lineSound inhibited u = true ↔ (u.cfg.enabled = true ↔ u.state ≠ .disabled) ∧ (u.pulse.isSome = true ↔ u.state = .on) ∧
      (u.holdoffTimer.isSome = true ↔ u.state = .holdoff) ∧
      (inhibited = true → u.state ≠ .on ∧ u.state ≠ .test) := by
  have same : ∀ a b : Bool, (a == b) = true ↔ (a = true ↔ b = true) := by decide
  simp only [lineSound, Bool.and_eq_true, same, bne_iff_ne, beq_iff_eq, Bool.not_eq_true', ← Bool.not_eq_true, Bool.or_eq_true]
  tauto

/-- A line unit that is enabled with neither pulse nor holdoff timer, in OFF or FAULT, is sound. -/
theorem lineSound_quiet {inhibited : Bool} {u : Line} (he : u.cfg.enabled = true) (hp : u.pulse = none)
    (ht : u.holdoffTimer = none) (hs : u.state = .off ∨ u.state = .fault) : lineSound inhibited u = true := by
  rw [lineSound_iff]
  rcases hs with hs | hs <;> simp [he, hp, ht, hs]

section
variable (s : State) (n : LineId)

/-! ### Pulses -/

/-- A pulse begins at a line in OFF or TEST while the inhibit condition is RELEASED (R106, R118). -/
theorem beginPulse_keeps (p : Pulse) (hs : s.lines[n].state = .off ∨ s.lines[n].state = .test) (hi : s.inhibited = false) :
    Keeps s (beginPulse n p s) := by
  have begun : ∀ t : State, t.inhibited = s.inhibited → t.lines = s.lines →
      Keeps t (setLine n { t.lines[n] with state := .on, pulse := some p, holdoffTimer := none } t) := by
    intro t ht hl
    refine setLine_keeps t n _ fun h => ?_
    rw [lineSound_iff, hl] at h
    rw [lineSound_iff, ht, hl]
    rcases hs with hs | hs <;> simp_all
  unfold beginPulse
  dsimp only
  split
  · exact (setTransit_keeps s _).trans ((begun _ rfl rfl).trans (setTransit_keeps _ _))
  · exact (begun s rfl rfl).trans (setTransit_keeps _ _)

/-- A pulse in ON is rewritten in place (R107). -/
theorem retrigger_keeps (p : Pulse) (hs : s.lines[n].state = .on) : Keeps s (retrigger n p s) := by
  refine setLine_keeps s n _ fun h => ?_
  rw [lineSound_iff] at h ⊢
  simp_all

/-- A pulse ends in HOLDOFF or OFF (R111). -/
theorem endPulse_keeps : Keeps s (endPulse n s) := by
  unfold endPulse
  split
  · rename_i p hp
    refine (setLine_keeps s n _ fun h => ?_).trans (setTransit_keeps _ _)
    rw [lineSound_iff] at h ⊢
    split <;> simp_all
  · exact .refl s

theorem truncatePulse_keeps (reason : Truncation) : Keeps s (truncatePulse n reason s) :=
  (raiseLine_keeps s n _).trans (endPulse_keeps _ n)

/-- Every answer to a firing request keeps the conditions (Table 4-3). -/
theorem answerFiring_keeps (e : EvalInput) (r : FiringRequest) : Keeps s (answerFiring e r s).2 := by
  have begins : ∀ p, (s.lines[r.line].state = .off ∨ s.lines[r.line].state = .test) →
      Keeps s (if s.inhibited then (.inhibited, s) else (CueResult.fired, beginPulse r.line p s)).2 := by
    intro p hs
    split
    · exact .refl s
    · rename_i hi
      exact beginPulse_keeps s _ p hs (by simpa using hi)
  unfold answerFiring
  split
  · exact .refl s
  · exact .refl s
  · exact .refl s
  · rename_i hs
    split
    · exact .refl s
    · split
      · exact .refl s
      · exact retrigger_keeps s _ _ hs
  · rename_i hs
    exact begins _ (.inl hs)
  · rename_i hs
    exact begins _ (.inr hs)

theorem testDistanceEnd_keeps (k : TrackId) (x : Int) : Keeps s (testDistanceEnd n k x s) := by
  unfold testDistanceEnd
  repeat' split
  · exact endPulse_keeps s n
  all_goals exact .refl s

theorem takeTruncation_keeps (k : TrackId) (reason : Truncation) : Keeps s (takeTruncation n k reason s) := by
  unfold takeTruncation
  split
  · exact truncatePulse_keeps s n reason
  · exact .refl s

theorem takeLineNotice_keeps (m : LineNotice) : Keeps s (takeLineNotice n m s) := by
  cases m with
  | change k x => exact testDistanceEnd_keeps s n k x
  | truncate k reason => exact takeTruncation_keeps s n k reason

theorem takeAllLineNotices_keeps : Keeps s (takeAllLineNotices n s) :=
  (setTransit_keeps s _).trans (.foldl (fun t m => takeLineNotice_keeps t n m) _ _)

/-! ### The rows of a line unit -/

theorem distancePulseEnd_keeps : Keeps s (distancePulseEnd n s) := by
  unfold distancePulseEnd
  split
  · exact (setTransit_keeps s _).trans (testDistanceEnd_keeps _ n _ _)
  · exact .refl s

theorem trackNoticeAtLine_keeps : Keeps s (trackNoticeAtLine n s) := by
  unfold trackNoticeAtLine
  split
  · exact (setTransit_keeps s _).trans (takeTruncation_keeps _ n _ _)
  · exact .refl s

theorem timePulseEnd_keeps : Keeps s (timePulseEnd n s) := by
  unfold timePulseEnd
  split
  · exact endPulse_keeps s n
  · exact .refl s

theorem maxOnExpiry_keeps : Keeps s (maxOnExpiry n s) := by
  unfold maxOnExpiry
  split
  · exact truncatePulse_keeps s n _
  · exact .refl s

theorem holdoffExpiry_keeps : Keeps s (holdoffExpiry n s) := by
  unfold holdoffExpiry
  split
  · refine setLine_keeps s n _ fun h => ?_
    rw [lineSound_iff] at h ⊢
    simp_all
  · exact .refl s

theorem lineLossPolicy_keeps : Keeps s (lineLossPolicy n s) := by
  unfold lineLossPolicy
  split
  · exact .refl s
  · dsimp only
    split
    · exact Keeps.trans .same (truncatePulse_keeps _ n _)
    · exact .same

/-! ### The inhibit input -/

/-- An inhibit assertion takes a sound line to one that is sound under the asserted inhibit (R118). -/
theorem inhibitedLine_sound {inhibited : Bool} {u : Line} (now : Nat) (h : lineSound inhibited u = true) :
    lineSound true (inhibitedLine now u) = true := by
  rw [lineSound_iff] at h ⊢
  unfold inhibitedLine rested
  split
  · split <;> simp_all
  · simp_all
  · rename_i htest hon
    have on : u.state ≠ .on := fun hs => by
      obtain ⟨p, hp⟩ := Option.isSome_iff_exists.1 (h.2.1.2 hs)
      exact hon p hs hp
    exact ⟨h.1, h.2.1, h.2.2.1, fun _ => ⟨on, htest⟩⟩

theorem inhibitLine_keeps : Keeps s (inhibitLine s n) := by
  unfold inhibitLine
  split
  · exact truncatePulse_keeps s n _
  · rename_i hs
    refine (setLine_keeps s n _ fun h => ?_).trans (setTransit_keeps _ _)
    rw [lineSound_iff] at h ⊢
    simp_all
  · exact .refl s

/-- An inhibit assertion keeps the conditions: no line is in ON or TEST behind it (R117, R118). -/
theorem assertInhibit_keeps : Keeps s (assertInhibit s) := by
  have rest : Keeps { s with inhibited := true } (assertInhibit s) :=
    (raiseInhibit_keeps _ _).trans ((Keeps.foldl inhibitLine_keeps _ _).trans (setTransit_keeps _ _))
  refine ⟨fun h => ?_, rest.tracks ∘ .congr rfl rfl rfl, rest.sizes ∘ .congr rfl rfl rfl rfl, rest.claims ∘ .congr rfl rfl⟩
  intro n
  have pulses : ∀ n : LineId, s.lines[n].pulse.isSome = true ↔ s.lines[n].state = .on := fun n =>
    ((lineSound_iff _ _).1 (h n)).2.1
  have line : (assertInhibit s).lines[n] = inhibitedLine s.now s.lines[n] := by
    rw [assertInhibit_eq s pulses]
    simp [setTransit, inhibitedLines, mem_allLines]
  have asserted : (assertInhibit s).inhibited = true := by
    rw [assertInhibit_eq s pulses]
    simp [setTransit, inhibitedLines]
  rw [line, asserted]
  exact inhibitedLine_sound s.now (h n)

theorem inhibitAssertion_keeps : Keeps s (inhibitAssertion s) := by
  unfold inhibitAssertion
  dsimp only
  split
  · exact .same
  · exact Keeps.trans .same (assertInhibit_keeps _)

theorem inhibitRelease_keeps : Keeps s (inhibitRelease s) := by
  unfold inhibitRelease
  dsimp only
  split
  · refine Keeps.trans (t := { s with inhibited := false, pins := { s.pins with inhibit := false } })
      ⟨fun h n => ?_, .congr rfl rfl rfl, .congr rfl rfl rfl rfl, .congr rfl rfl⟩ (raiseInhibit_keeps _ _)
    have sound := h n
    rw [lineSound_iff] at sound ⊢
    exact ⟨sound.1, sound.2.1, sound.2.2.1, fun hi => nomatch hi⟩
  · exact .same

/-! ### The Load Supervisor -/

theorem latch_keeps (kind : FaultKind) : Keeps s (latch n kind s) := by
  unfold latch
  split
  · exact .refl s
  · exact (setLoad_keeps s n _).trans (raiseLine_keeps _ n _)

theorem forceLine_keeps : Keeps s (forceLine n s) := by
  unfold forceLine
  split
  · exact .refl s
  · exact (setLoad_keeps s n _).trans (setTransit_keeps _ _)

theorem latchForcing_keeps (kind : FaultKind) : Keeps s (latchForcing n kind s) := by
  unfold latchForcing
  split
  · exact .refl s
  · exact (latch_keeps s n kind).trans (forceLine_keeps _ n)

theorem raiseSweepDone_keeps : Keeps s (raiseSweepDone s) := by
  unfold raiseSweepDone
  repeat' split
  · exact raiseUnowned_keeps _ _
  · exact setTransit_keeps _ _
  · exact raiseUnowned_keeps _ _

theorem endSweep_keeps : Keeps s (endSweep s) := (setSweep_keeps s _).trans (raiseSweepDone_keeps _)

theorem setResult_keeps (r : SweepResult) : Keeps s (setResult n r s) := .same

theorem visitLines_keeps (ns : List LineId) : Keeps s (visitLines ns s) := by
  induction ns generalizing s with
  | nil => exact endSweep_keeps s
  | cons n ns ih =>
    rw [visitLines]
    dsimp only
    have visited : ∀ r c, Keeps s (setResult n r (setSweep { s.sweep with current := c } s)) := fun _ _ => .same
    split
    · exact (visited _ _).trans (ih _)
    · split
      · exact (visited _ _).trans (ih _)
      · exact .same

theorem continueSweep_keeps : Keeps s (continueSweep n s) := visitLines_keeps s _

theorem beginSweep_keeps (starter : Starter) : Keeps s (beginSweep starter s) :=
  (setSweep_keeps s _).trans (visitLines_keeps _ _)

/-- A line in TEST leaves it for OFF (R116). -/
theorem endProbeAtLine_keeps : Keeps s (endProbeAtLine n s) := by
  unfold endProbeAtLine
  split
  · refine setLine_keeps s n _ fun h => ?_
    rw [lineSound_iff] at h ⊢
    simp_all
  · exact .refl s

/-- A forced line is in FAULT without pulse or timer, or DISABLED as it was (R115). -/
theorem forcedLine_sound {inhibited : Bool} {u : Line} (h : lineSound inhibited u = true) :
    lineSound inhibited (forcedLine u) = true := by
  unfold forcedLine
  split
  · exact h
  · rename_i hs
    exact lineSound_quiet (((lineSound_iff _ _).1 h).1.2 hs) rfl rfl (.inr rfl)

theorem setForcedLine_keeps {t : State} (hi : t.inhibited = s.inhibited) (hl : t.lines = s.lines) :
    Keeps t (setLine n (forcedLine s.lines[n]) t) := by
  refine setLine_keeps t n _ fun h => ?_
  rw [hi] at h ⊢
  rw [hl] at h
  exact forcedLine_sound h

theorem forceProbedLine_keeps : Keeps s (forceProbedLine n s) := by
  unfold forceProbedLine
  split
  · exact (setForcedLine_keeps s n rfl rfl).trans .same
  · exact forceLine_keeps s n

theorem probeOverload_keeps : Keeps s (probeOverload n s) := by
  unfold probeOverload
  split
  · have stopped : Keeps s (setView n .inactive (stopProbe (setResult n .overload s))) := .same
    refine (stopped.trans ?_).trans (continueSweep_keeps _ n)
    split
    · exact endProbeAtLine_keeps _ n
    · exact (latch_keeps _ n _).trans (forceProbedLine_keeps _ n)
  · exact latchForcing_keeps s n _

/-- A moment of judgement keeps the conditions (R124 to R127). -/
theorem judge_keeps : Keeps s (judge n s) := by
  unfold judge
  split
  · exact latchForcing_keeps s n _
  · split
    · exact latch_keeps s n _
    · exact .refl s
  · exact probeOverload_keeps s n
  · exact latchForcing_keeps s n _
  · exact .refl s

theorem setLoad_judge_keeps (u : Load) : Keeps s (judge n (setLoad n u s)) :=
  (setLoad_keeps s n u).trans (judge_keeps _ n)

theorem abortSweep_keeps : Keeps s (abortSweep s) := (setSweep_keeps s _).trans (endSweep_keeps _)

theorem takeAbandoned_keeps (cause : Abandon) : Keeps s (takeAbandoned n cause s) := by
  unfold takeAbandoned
  split
  · have stopped : Keeps s (judge n (setView n (viewAfterAbandon cause) (stopProbe (setResult n .skippedBusy s)))) :=
      Keeps.trans .same (setLoad_judge_keeps _ n _)
    refine stopped.trans ?_
    split
    · exact abortSweep_keeps _
    · exact continueSweep_keeps _ n
  · exact setLoad_judge_keeps s n _

theorem takeLoadNotice_keeps (m : LoadNotice) : Keeps s (takeLoadNotice n m s) := by
  cases m with
  | begun => exact setLoad_judge_keeps s n _
  | ended => exact setLoad_judge_keeps s n _
  | probing =>
    rw [takeLoadNotice]
    split
    · exact (setSweep_keeps s _).trans (setLoad_judge_keeps _ n _)
    · exact .refl s
  | abandoned cause => exact takeAbandoned_keeps s n cause

theorem takeAllLoadNotices_keeps : Keeps s (takeAllLoadNotices n s) :=
  (setTransit_keeps s _).trans (.foldl (fun t m => takeLoadNotice_keeps t n m) _ _)

/-- A line that takes a forcing enters FAULT, and a probe in progress ends (R115). -/
theorem takeForcing_keeps : Keeps s (takeForcing n s) := by
  unfold takeForcing
  split
  · have taken : Keeps s (putForcing n false (takeAllLoadNotices n s)) :=
      (takeAllLoadNotices_keeps s n).trans (setTransit_keeps _ _)
    refine taken.trans ?_
    generalize putForcing n false (takeAllLoadNotices n s) = u
    have forced : ∀ v : State, Keeps u v → v.inhibited = u.inhibited → v.lines = u.lines →
        Keeps u (judge n (quietLoad n (setLine n (forcedLine u.lines[n]) v))) := fun v hv hi hl =>
      (hv.trans (setForcedLine_keeps u n hi hl)).trans (setLoad_judge_keeps _ n _)
    dsimp only
    repeat' split
    · exact .refl u
    · exact (forced (endForcedProbe n u) .same rfl rfl).trans (continueSweep_keeps _ n)
    · exact forced u (.refl u) rfl rfl
  · exact .refl s

/-! ### The rows of the Load Supervisor -/

theorem senseEvent_keeps (c : SenseCond) : Keeps s (senseEvent n c s) := by
  unfold senseEvent
  split
  · exact .refl s
  · exact Keeps.trans .same (setLoad_judge_keeps (setSensePin n c s) n _)

theorem driveViewNotice_keeps : Keeps s (driveViewNotice n s) := by
  unfold driveViewNotice
  split
  · exact (setTransit_keeps s _).trans (takeLoadNotice_keeps _ n _)
  · exact (setTransit_keeps s _).trans (takeLoadNotice_keeps _ n _)
  · exact (setTransit_keeps s _).trans (takeLoadNotice_keeps _ n _)
  · exact .refl s

theorem abandonment_keeps : Keeps s (abandonment n s) := by
  unfold abandonment
  split
  · exact (setTransit_keeps s _).trans (takeAbandoned_keeps _ n _)
  · exact .refl s

theorem blankingExpiry_keeps : Keeps s (blankingExpiry n s) := by
  unfold blankingExpiry
  split
  · exact setLoad_judge_keeps s n _
  · exact .refl s

theorem periodTimerExpiry_keeps : Keeps s (periodTimerExpiry s) := by
  unfold periodTimerExpiry
  split
  · dsimp only
    split
    · exact setSweep_keeps s _
    · exact Keeps.trans .same (beginSweep_keeps _ _)
  · exact .refl s

theorem probeStart_keeps : Keeps s (probeStart n s) := by
  unfold probeStart
  split
  · have forced : Keeps s (takeForcing n (setSweep { s.sweep with request := none } s)) :=
      (setSweep_keeps s _).trans (takeForcing_keeps _ n)
    refine forced.trans ?_
    generalize takeForcing n (setSweep { s.sweep with request := none } s) = u
    dsimp only
    split
    · rename_i hs
      refine (setLine_keeps u n _ fun h => ?_).trans (setTransit_keeps _ _)
      rw [lineSound_iff] at h ⊢
      simp_all
    · exact (setResult_keeps u n _).trans (continueSweep_keeps _ n)
  · exact .refl s

theorem finishProbe_keeps : Keeps s (finishProbe n s) := by
  have found : Keeps s (if (stopProbe s).loads[n].sense = .noLoad then latch n .openLoad (setResult n .openLoad (stopProbe s))
      else setResult n .pass (stopProbe s)) := by
    split
    · exact Keeps.trans .same (latch_keeps _ n _)
    · exact .same
  exact (found.trans (endProbeAtLine_keeps _ n)).trans ((setLoad_judge_keeps _ n _).trans (continueSweep_keeps _ n))

theorem probeTimerExpiry_keeps : Keeps s (probeTimerExpiry s) := by
  unfold probeTimerExpiry
  dsimp only
  repeat' split
  · exact (takeAllLoadNotices_keeps s _).trans (probeOverload_keeps _ _)
  · exact (takeAllLoadNotices_keeps s _).trans (finishProbe_keeps _ _)
  · exact takeAllLoadNotices_keeps s _
  · exact .refl s
  · exact .refl s

theorem abortByAssertion_keeps : Keeps s (abortByAssertion s) := by
  unfold abortByAssertion
  split
  · rename_i n _
    refine (takeAllLoadNotices_keeps s n).trans ?_
    generalize takeAllLoadNotices n s = u
    dsimp only
    split
    · refine Keeps.trans ?_ (abortSweep_keeps _)
      split
      · have stopped : Keeps u (stopProbe (setResult n .skippedBusy u)) := .same
        exact (stopped.trans (endProbeAtLine_keeps _ n)).trans (setLoad_judge_keeps _ n _)
      · exact .refl u
    · exact .refl u
  · exact .refl s

theorem abortByInhibit_keeps : Keeps s (abortByInhibit s) := by
  unfold abortByInhibit
  split
  · dsimp only
    split
    · exact Keeps.trans .same (abortByAssertion_keeps _)
    · exact .same
  · exact .refl s

end

/-! ### Resets -/

/-- The state that a reset installs meets the four conditions, whatever its cause and pins. -/
theorem afterReset_sound (cause : ResetCause) (pins : Pins) (now : Nat) (pending : List Instr) :
    LinesSound (State.afterReset cause pins now pending) ∧ TracksSound (State.afterReset cause pins now pending) ∧
      SizesSound (State.afterReset cause pins now pending) ∧ ClaimsSound (State.afterReset cause pins now pending) := by
  refine ⟨fun n => ?_, fun k => ?_, ⟨(by decide : 0 ≤ Config.poolSize), fun k => ?_, fun l => ?_⟩, fun r => ?_⟩
  · have line : (State.afterReset cause pins now pending).lines[n] = .reset := Vector.getElem_replicate _
    rw [line]
    rfl
  · have track : (State.afterReset cause pins now pending).tracks[k] = .reset := Vector.getElem_replicate _
    have mark : (State.afterReset cause pins now pending).marks[k] = .reset := Vector.getElem_replicate _
    rw [track, mark]
    exact ⟨rfl, fun _ => ⟨Vector.getElem_replicate _, rfl⟩⟩
  · have schedule : (State.afterReset cause pins now pending).csu.schedules[k] = [] := Vector.getElem_replicate _
    rw [cueCount, schedule]
    exact Nat.zero_le _
  · cases l <;> exact ⟨(by decide : 1 ≤ Config.queueSize), rfl, fun h => nomatch h⟩
  · have free : (State.afterReset cause pins now pending).claims[r] = .free := Vector.getElem_replicate _
    rw [free]
    exact ⟨fun _ h => (nomatch h), fun _ => rfl⟩

theorem afterReset_keeps (cause : ResetCause) (pins : Pins) (now : Nat) (pending : List Instr) (s : State) :
    Keeps s (State.afterReset cause pins now pending) :=
  have ⟨lines, tracks, sizes, claims⟩ := afterReset_sound cause pins now pending
  ⟨fun _ => lines, fun _ => tracks, fun _ => sizes, fun _ => claims⟩

/-- A full reset keeps the conditions, whatever the state before it. -/
theorem fullReset_keeps (cause : ResetCause) (s t : State) : Keeps t (fullReset cause s) := by
  have inhibited : ∀ u, Keeps u (inhibitAtReset u) := fun u => by
    unfold inhibitAtReset
    split
    · exact assertInhibit_keeps u
    · exact .refl u
  exact (afterReset_keeps cause s.pins s.now s.pending t).trans ((inhibited _).trans (.foldl judge_keeps allLines _))

end Sys2Proof.Machine
end
section
/-! SUPPORT. The operations of the Cue Schedule Unit, the mark units and the track units keep the four conditions (01 to 05). -/

namespace Sys2Proof.Machine

-- One proof at a time: proofs elaborated side by side would hold a thread each, and its stack.
set_option Elab.async false

section
variable (s : State) (k : TrackId)

/-! ### The counts of the schedules (R41, R42, R43, R44) -/

theorem length_insertCue (t : Travel) (c : Cue) (cs : List Cue) : (insertCue t c cs).length = cs.length + 1 := by
  induction cs with
  | nil => rfl
  | cons d ds ih =>
    unfold insertCue
    split
    · rfl
    · rw [List.length_cons, ih, List.length_cons]

theorem length_renumberFrom (n : Nat) (cs : List Cue) : (renumberFrom n cs).length = cs.length := by
  induction cs generalizing n with
  | nil => rfl
  | cons c cs ih => simp only [renumberFrom, List.length_cons, ih]

/-- A renumbering changes no count. -/
theorem cueCount_readyStamp (j : TrackId) : cueCount (readyStamp s) j = cueCount s j := by
  unfold readyStamp
  split
  · fin_cases j <;> simp [renumber, cueCount, setStamp, length_renumberFrom]
  · rfl

/-- An insertion adds one cue to its schedule and to no other. -/
theorem cueCount_insertRecord (c : Cue) (j : TrackId) :
    cueCount (insertRecord k c s) j = cueCount s j + if k = j then 1 else 0 := by
  rw [← cueCount_readyStamp s]
  simp only [insertRecord, cueCount, setStamp, setSchedule_csu, getElem_set]
  split
  · rename_i h
    subst h
    rw [length_insertCue]
  · rfl

theorem cueCount_setSchedule (cs : List Cue) (j : TrackId) :
    cueCount (setSchedule k cs s) j = if k = j then cs.length else cueCount s j := by
  simp only [cueCount, setSchedule_csu, getElem_set]
  split <;> rfl

/-- An insertion touches the CSU alone. -/
theorem insertRecord_csu (c : Cue) : insertRecord k c s = { s with csu := (insertRecord k c s).csu } := by
  unfold insertRecord readyStamp
  dsimp only
  split <;> rfl

/-- A record enters the schedule of an enabled track below its limit, from a pool with a free record (R50, R53). -/
theorem insertRecord_keeps (c : Cue) (hs : s.tracks[k].state ≠ .disabled) (hfree : freeCount s ≠ 0)
    (hlimit : cueCount s k < s.tracks[k].cfg.scheduleLimit) : Keeps s (insertRecord k c s) := by
  have count := cueCount_insertRecord s k c
  have frame := insertRecord_csu s k c
  generalize (insertRecord k c s) = t at count frame
  have ht : t.tracks = s.tracks := by rw [frame]
  refine ⟨.congr (by rw [frame]) (by rw [frame]), fun h j => ?_, ?_, .congr (by rw [frame]) (by rw [frame])⟩
  · rw [ht]
    refine ⟨(h j).1, fun hd => ⟨?_, ?_⟩⟩
    · have e : k ≠ j := fun e => hs (e ▸ hd)
      have := count j
      rw [if_neg e] at this
      simp only [cueCount, ((h j).2 hd).1, List.length_nil] at this
      exact List.eq_nil_of_length_eq_zero (by omega)
    · have hm : t.marks = s.marks := by rw [frame]
      rw [hm]
      exact ((h j).2 hd).2
  · rintro ⟨pool, limits, queues⟩
    have hl : t.links = s.links := by rw [frame]
    have hq : t.queues = s.queues := by rw [frame]
    refine ⟨?_, fun j => ?_, by simpa only [queueOn, isLost, hl, hq] using queues⟩
    · have one : pendingCues t = pendingCues s + 1 := by
        simp only [pendingCues, count]
        clear * -
        fin_cases k <;> simp <;> omega
      simp only [freeCount] at hfree
      omega
    · rw [ht, count]
      split
      · rename_i e
        subst e
        exact hlimit
      · exact limits j

/-! ### Outcomes and removals -/

theorem raiseOutcome_keeps (level : Notify) (o : OutcomeReport) : Keeps s (raiseOutcome level o s) := by
  unfold raiseOutcome
  split
  · exact raiseTrack_keeps s _ _
  · exact .refl s

/-- The resolution of a head puts back at most the one record it takes out (R63, R70). -/
theorem completeResolution_keeps {u : State} {e : EvalInput} {c : Cue} {rest : List Cue} {r : CueResult}
    (h : s.csu.schedules[k] = c :: rest) (hu : Keeps s u) (hc : u.csu = s.csu) :
    Keeps s (completeResolution k e c rest r u) := by
  rw [← hc] at h
  refine hu.trans (Keeps.trans ?_ (raiseOutcome_keeps _ _ _))
  have out : ∀ j, cueCount (setSchedule k rest u) j + (if k = j then 1 else 0) = cueCount u j := by
    intro j
    rw [cueCount_setSchedule]
    split
    · rename_i e
      subst e
      rw [cueCount, h, List.length_cons]
    · rfl
  unfold applyResolution
  split
  · rename_i d _ _
    refine setCsu_keeps u (insertRecord k d (setSchedule k rest u)).csu (insertRecord_csu _ k d) fun j => ?_
    have := cueCount_insertRecord (setSchedule k rest u) k d j
    have := out j
    simp only [cueCount] at *
    omega
  all_goals exact setSchedule_keeps u k rest (by rw [h]; exact Nat.le_succ _)

/-- The loop of an evaluation event keeps the conditions (R62, R71). -/
theorem resolveHeads_keeps (fuel : Nat) (e : EvalInput) : Keeps s (resolveHeads fuel k e s) := by
  induction fuel generalizing s with
  | zero => exact setEvaluation_keeps s _
  | succ fuel ih =>
    unfold resolveHeads
    split
    · exact setEvaluation_keeps s _
    · rename_i c rest h
      repeat' split
      · exact (completeResolution_keeps s k h (.refl s) rfl).trans (ih _)
      · exact setEvaluation_keeps s _
      · exact setEvaluation_keeps s _

theorem takeFiringRequest_keeps : Keeps s (takeFiringRequest s) := by
  unfold takeFiringRequest
  repeat' split
  · rename_i h
    exact (completeResolution_keeps s _ h (answerFiring_keeps s _ _) (answerFiring_csu s _ _)).trans
      (resolveHeads_keeps _ _ _ _)
  · exact setEvaluation_keeps s _
  · exact .refl s

/-- The completion of the evaluation event in progress keeps the conditions (R62, log 3). -/
theorem finishEvaluation_keeps : Keeps s (finishEvaluation s) := by
  have loop : ∀ fuel t, Keeps t (finishLoop fuel t) := by
    intro fuel
    induction fuel with
    | zero => exact fun t => .refl t
    | succ fuel ih =>
      intro t
      unfold finishLoop
      split
      · exact .refl t
      · exact (takeFiringRequest_keeps t).trans (ih _)
  unfold finishEvaluation
  split
  · exact loop _ s
  · exact .refl s

theorem takeChange_keeps (e : EvalInput) : Keeps s (takeChange k e s) := by
  unfold takeChange
  dsimp only
  split
  · exact (setTaken_keeps s k _).trans (resolveHeads_keeps _ k _ e)
  · exact setTaken_keeps s k _

theorem removeReached_keeps (r : CueResult) (x : Int) : Keeps s (removeReached k r x s) :=
  (setSchedule_keeps s k _ (List.length_filter_le _ _)).trans (.foldl (fun t _ => raiseOutcome_keeps t _ _) _ _)

theorem takeCsuNotice_keeps (n : CsuNotice) : Keeps s (takeCsuNotice k s n) := by
  have removed : ∀ r x, Keeps s (removeReached k r x (setTaken k x s)) := fun r x =>
    (setTaken_keeps s k x).trans (removeReached_keeps _ k r x)
  cases n with
  | change e => exact takeChange_keeps s k e
  | freeze => exact setMode_keeps s k _
  | resume x => exact (removed _ x).trans (setMode_keeps _ k _)
  | discontinuity x => exact removed _ x

theorem takeAllCsuNotices_keeps : Keeps s (takeAllCsuNotices k s) :=
  ((finishEvaluation_keeps s).trans (setTransit_keeps _ _)).trans
    (.foldl (fun t n => (takeCsuNotice_keeps t k n).trans (finishEvaluation_keeps _)) _ _)

theorem bulkRemove_keeps (keep : Cue → Bool) : Keeps s (bulkRemove k keep s) :=
  setSchedule_keeps s k _ (List.length_filter_le _ _)

/-! ### The rows of the Cue Schedule Unit -/

/-- A row of the CSU first completes the event in progress, then takes a notice off its list (log 3). -/
theorem finished_keeps (ns : List CsuNotice) : Keeps s (putToCsu k ns (finishEvaluation s)) :=
  (finishEvaluation_keeps s).trans (setTransit_keeps _ _)

theorem evaluationEvent_keeps : Keeps s (evaluationEvent k s) := by
  unfold evaluationEvent
  split
  · exact (finished_keeps s k _).trans (takeChange_keeps _ k _)
  · exact .refl s

theorem firingRequest_keeps (n : LineId) : Keeps s (firingRequest n s) := by
  unfold firingRequest
  repeat' split
  · exact takeFiringRequest_keeps s
  · exact .refl s
  · exact .refl s

theorem discontinuityNotice_keeps : Keeps s (discontinuityNotice k s) := by
  unfold discontinuityNotice
  split
  · rename_i x rest _
    exact (finished_keeps s k rest).trans (takeCsuNotice_keeps _ k (.discontinuity x))
  · exact .refl s

theorem resumeNotice_keeps : Keeps s (resumeNotice k s) := by
  unfold resumeNotice
  split
  · rename_i x rest _
    exact (finished_keeps s k rest).trans (takeCsuNotice_keeps _ k (.resume x))
  · exact .refl s

theorem freezeNotice_keeps : Keeps s (freezeNotice k s) := by
  unfold freezeNotice
  split
  · exact (finished_keeps s k _).trans (setMode_keeps _ k _)
  · exact .refl s

/-- A spawn request enters a schedule only past every check of R53. -/
theorem takeSpawn_keeps (r : Spawn) : Keeps s (takeSpawn k r s) := by
  unfold takeSpawn
  split
  · exact raiseTrack_keeps s k _
  · exact raiseOutcome_keeps s _ _
  · rename_i h
    unfold judgeSpawn at h
    repeat' split at h
    all_goals cases h
    exact insertRecord_keeps s k _ ‹_› ‹_› (by omega)

theorem spawnRequest_keeps : Keeps s (spawnRequest k s) := by
  unfold spawnRequest
  split
  · exact ((finishEvaluation_keeps s).trans (setTransit_keeps _ _)).trans (takeSpawn_keeps _ k _)
  · exact .refl s

theorem flushTrackLoss_keeps : Keeps s (flushTrackLoss k s) :=
  (bulkRemove_keeps s k _).trans (raiseTrack_keeps _ k _)

theorem flushLineLoss_keeps (n : LineId) : Keeps s (flushLineLoss n s) := by
  unfold flushLineLoss
  dsimp only
  split
  · exact .refl s
  · exact (bulkRemove_keeps s _ _).trans (raiseTrack_keeps _ _ _)

theorem flushLossPolicy_keeps : Keeps s (flushLossPolicy s) := by
  unfold flushLossPolicy
  dsimp only
  repeat' split
  · exact ((setTransit_keeps s _).trans (finishEvaluation_keeps _)).trans (flushTrackLoss_keeps _ _)
  · exact ((setTransit_keeps s _).trans (finishEvaluation_keeps _)).trans (flushLineLoss_keeps _ _)
  · exact .refl s

/-! ### The mark units -/

/-- A mark unit that is not OFF may take any state but through a DISABLED track (R93). -/
theorem setMark_on_keeps (m : Mark) (h : s.marks[k].state ≠ .off) : Keeps s (setMark k m s) :=
  setMark_keeps s k m fun _ off => absurd off h

theorem markOff_keeps : Keeps s (markOff k s) := setMark_keeps s k _ fun _ _ => rfl

theorem spawnProgram_keeps (pos : Int) (seq : BitVec 16) : Keeps s (spawnProgram k pos seq s) := by
  refine .foldl (fun t e => ?_) _ _
  split
  · exact setTransit_keeps t _
  · exact .refl t

theorem ignoreEdge_keeps : Keeps s (ignoreEdge k s) := setTrack_keeps s k _ id id id

theorem capture_keeps (x : Int) (h : s.marks[k].state ≠ .off) : Keeps s (capture k x s) := by
  unfold capture
  dsimp only
  refine Keeps.trans ((setMark_on_keeps s k (capturedMark s.marks[k] x) h).trans ?_) (spawnProgram_keeps _ k _ _)
  split
  · exact raiseTrack_keeps _ k _
  · exact .refl _

theorem loseMark_keeps (cause : LossCause) (h : s.marks[k].state ≠ .off) : Keeps s (loseMark k cause s) :=
  (setMark_on_keeps s k _ h).trans (raiseTrack_keeps _ k _)

/-- A mark edge is taken by a unit that is not OFF (R83). -/
theorem markEdge_keeps (edge : MarkEdge) : Keeps s (markEdge k edge s) := by
  unfold markEdge armedEdge
  split
  · split
    · exact .refl s
    · exact ignoreEdge_keeps s k
    · rename_i h
      repeat' split
      · exact raiseTrack_keeps s k _
      · exact capture_keeps s k _ (by rw [h]; exact MarkState.noConfusion)
      · exact ignoreEdge_keeps s k
    · rename_i h
      split
      · exact capture_keeps s k _ (by rw [h]; exact MarkState.noConfusion)
      · exact ignoreEdge_keeps s k
  · exact .refl s

theorem endBlanking_keeps (x : Int) : Keeps s (endBlanking k x s) := by
  unfold endBlanking
  split
  · rename_i h
    exact setMark_on_keeps s k _ (by rw [h.1]; exact MarkState.noConfusion)
  · exact .refl s

theorem substitute_keeps (x : Int) (h : s.marks[k].state ≠ .off) : Keeps s (substitute k x s) :=
  ((setMark_on_keeps s k _ h).trans (raiseTrack_keeps _ k _)).trans (spawnProgram_keeps _ k _ _)

/-- A missing mark is found only by a unit in ARMED or BLANKED (R88). -/
theorem isMissing_on {x : Int} (h : isMissing s k x = true) : s.marks[k].state ≠ .off := by
  intro off
  simp [isMissing, watchActive, off, -Fin.getElem_fin] at h

theorem watchLoop_keeps (fuel : Nat) (x : Int) : Keeps s (watchLoop fuel k x s) := by
  induction fuel generalizing s with
  | zero => exact .refl s
  | succ fuel ih =>
    unfold watchLoop
    split
    · rename_i h
      split
      · exact (substitute_keeps s k x (isMissing_on s k h)).trans (ih _)
      · exact loseMark_keeps s k _ (isMissing_on s k h)
    · exact .refl s

theorem takeMarkLoss_keeps (cause : LossCause) : Keeps s (takeMarkLoss k cause s) := by
  unfold takeMarkLoss
  split
  · rename_i h
    exact loseMark_keeps s k cause (by rw [h]; exact MarkState.noConfusion)
  · rename_i h
    exact loseMark_keeps s k cause (by rw [h]; exact MarkState.noConfusion)
  · exact .refl s
  · exact .refl s

theorem takeMarkNotice_keeps (n : MarkNotice) : Keeps s (takeMarkNotice k s n) := by
  cases n with
  | change x => exact (endBlanking_keeps s k x).trans (watchLoop_keeps _ k _ x)
  | fault => exact takeMarkLoss_keeps s k _
  | discontinuity => exact takeMarkLoss_keeps s k _

theorem takeMarkNotices_keeps (ns : List MarkNotice) : Keeps s (takeMarkNotices k ns s) := by
  induction ns generalizing s with
  | nil => exact .refl s
  | cons n ns ih => exact ((setTransit_keeps s _).trans (takeMarkNotice_keeps _ k n)).trans (ih _)

theorem markPositionChange_keeps : Keeps s (markPositionChange k s) := by
  unfold markPositionChange
  split
  · rename_i x _ _
    exact (setTransit_keeps s _).trans (takeMarkNotice_keeps _ k (.change x))
  · exact .refl s

theorem markFaultNotice_keeps : Keeps s (markFaultNotice k s) := by
  unfold markFaultNotice
  split
  · exact (setTransit_keeps s _).trans (takeMarkLoss_keeps _ k _)
  · exact .refl s

theorem markDiscontinuityNotice_keeps : Keeps s (markDiscontinuityNotice k s) := by
  unfold markDiscontinuityNotice
  split
  · exact (setTransit_keeps s _).trans (takeMarkLoss_keeps _ k _)
  · exact .refl s

theorem markUnitOffNotice_keeps : Keeps s (markUnitOffNotice k s) := by
  unfold markUnitOffNotice
  split
  · exact .refl s
  · exact (setTransit_keeps s _).trans (markOff_keeps _ k)

end

/-! ### The track units -/

/-- What a sound track unit is, condition by condition. -/
theorem trackSound_iff (t : Track) :
    trackSound t = true ↔ (t.settleTimer.isSome = true ↔ t.state = .settling) ∧ (t.window.isSome = true ↔ t.state ≠ .disabled) ∧
      (t.sampleTimer.isSome = true ↔ t.state ≠ .disabled ∧ t.cfg.source = .sampled) ∧
      (t.transfer = true → t.sampleTimer.isSome = true) ∧ (t.cause ≠ .absent ↔ t.state = .fault) ∧
      (t.state = .disabled → t.vel = 0) := by
  have same : ∀ a b : Bool, (a == b) = true ↔ (a = true ↔ b = true) := by decide
  simp only [trackSound, Bool.and_eq_true, same, bne_iff_ne, beq_iff_eq, Bool.not_eq_true', ← Bool.not_eq_true, Bool.or_eq_true]
  tauto

section
variable (s : State) (k : TrackId)

/-- A track unit changed in what neither soundness nor the schedule limit reads. -/
theorem setTrack_same_keeps (u : Track) (h : trackSound u = trackSound s.tracks[k]) (hd : u.state = s.tracks[k].state)
    (hlimit : u.cfg.scheduleLimit = s.tracks[k].cfg.scheduleLimit) : Keeps s (setTrack k u s) :=
  setTrack_keeps s k u (fun hs => h.trans hs) (fun hu => hd ▸ hu) (fun hc => hlimit ▸ hc)

/-- The state, cause and timer of a fault entry (R11). -/
theorem enterFault_keeps (cause : TrackCause) (hs : s.tracks[k].state ≠ .disabled) (hc : cause ≠ .absent) :
    Keeps s (enterFault k cause s) := by
  have faulted : Keeps s (setTrack k (faultedTrack s.tracks[k] cause) s) := by
    refine setTrack_keeps s k _ (fun h => ?_) (fun h => nomatch h) id
    rw [trackSound_iff] at h ⊢
    simp_all [faultedTrack]
  exact ((faulted.trans (raiseTrack_keeps _ k _)).trans .same).trans (tellDistanceLines_keeps _ k _)

/-- A track that begins to settle is in SETTLING with its timer, or in RUNNING without one (R8). -/
theorem startSettle_sound {v t : Track} (hv : trackSound v = true) (hs : v.state ≠ .disabled) (hf : t.cause = .absent)
    (hw : t.window.isSome = true) (hst : t.sampleTimer = v.sampleTimer) (htr : t.transfer = v.transfer)
    (hsrc : t.cfg.source = v.cfg.source) : trackSound (startSettle s t) = true := by
  rw [trackSound_iff] at hv
  unfold startSettle
  split <;> simp_all [trackSound_iff]

theorem startSettle_enabled (t : Track) : (startSettle s t).state ≠ .disabled ∧ (startSettle s t).cfg = t.cfg := by
  unfold startSettle
  split <;> exact ⟨TrackState.noConfusion, rfl⟩

/-- A SETTLING track that enters RUNNING has no settle timer (R8). -/
theorem finishSettle_keeps (hs : s.tracks[k].state = .settling) : Keeps s (finishSettle k s) := by
  have running : Keeps s (setTrack k { s.tracks[k] with state := .running, settleTimer := none } s) := by
    refine setTrack_keeps s k _ (fun h => ?_) (fun h => nomatch h) id
    rw [trackSound_iff] at h ⊢
    simp_all
  exact running.trans (raiseTrack_keeps _ k _)

theorem judgeSourceError_keeps (cause : TrackCause) (reached : Bool) (hc : cause ≠ .absent) :
    Keeps s (judgeSourceError k cause reached s) := by
  unfold judgeSourceError
  split
  · exact .refl s
  · exact .refl s
  · rename_i h
    split
    · exact enterFault_keeps s k cause (by rw [h]; exact TrackState.noConfusion) hc
    · exact .refl s
  · rename_i h
    have enabled : s.tracks[k].state ≠ .disabled := by rw [h]; exact TrackState.noConfusion
    repeat' split
    · exact enterFault_keeps s k cause enabled hc
    · exact finishSettle_keeps s k h
    · obtain ⟨hd, hcfg⟩ := startSettle_enabled s s.tracks[k]
      refine setTrack_keeps s k _ (fun hs => ?_) (fun hu => absurd hu hd) (by rw [hcfg]; exact id)
      obtain ⟨-, hw, -, -, hf, -⟩ := (trackSound_iff _).1 hs
      refine startSettle_sound s hs enabled ?_ (hw.2 enabled) rfl rfl rfl
      by_contra hcause
      rw [hf.1 hcause] at h
      cases h

/-- A position change offered to the neighbours changes only what is on its way (R3). -/
theorem offerChange_keeps : Keeps s (offerChange k s) := by
  rw [offerChange_eq]
  exact .same

theorem movedTrack_same (t : Track) (d : Int) : trackSound (movedTrack t d) = trackSound t ∧
    (movedTrack t d).state = t.state ∧ (movedTrack t d).cfg = t.cfg := by
  unfold movedTrack
  repeat' split
  all_goals exact ⟨rfl, rfl, rfl⟩

theorem isTracking_enabled (h : isTracking s k = true) : s.tracks[k].state ≠ .disabled := by
  intro hd
  simp only [isTracking, hd] at h
  cases h

theorem applyChange_keeps (d : Int) : Keeps s (applyChange k d s) := by
  obtain ⟨sound, state, cfg⟩ := movedTrack_same s.tracks[k] d
  have moved : Keeps s (setTrack k (movedTrack s.tracks[k] d) s) :=
    setTrack_same_keeps s k _ sound state (by rw [cfg])
  unfold applyChange
  dsimp only
  split
  · exact .refl s
  · split
    · rename_i tracking
      split
      · exact moved.trans (offerChange_keeps _ k)
      · exact moved.trans (enterFault_keeps _ k _ (isTracking_enabled _ k tracking) TrackCause.noConfusion)
    · exact moved

/-! ### The rows of a track unit -/

theorem windowEnd_keeps : Keeps s (windowEnd k s) := by
  unfold windowEnd
  split
  · rename_i w hw
    have rolled : Keeps s (setTrack k (rolledTrack s.tracks[k] w) s) := by
      refine setTrack_keeps s k _ (fun h => ?_) id id
      rw [trackSound_iff] at h ⊢
      simp_all [rolledTrack, windowFrom]
    dsimp only
    split
    · rename_i h
      exact rolled.trans (enterFault_keeps _ k _ (isTracking_enabled _ k (Bool.and_eq_true_iff.1 h).1) TrackCause.noConfusion)
    · exact rolled
  · exact .refl s

theorem settleExpiry_keeps : Keeps s (settleExpiry k s) := by
  unfold settleExpiry
  split
  · rename_i h
    exact finishSettle_keeps s k h
  · exact .refl s

theorem illegalTransition_keeps : Keeps s (illegalTransition k s) :=
  (setTrack_same_keeps s k _ (by rfl) (by rfl) (by rfl)).trans (judgeSourceError_keeps _ k _ _ TrackCause.noConfusion)

theorem phaseChange_keeps (a b : Bool) : Keeps s (phaseChange k a b s) := by
  have referenced : ∀ (t : State) p, Keeps t (setTrack k { t.tracks[k] with reference := some p } t) := fun t p =>
    setTrack_same_keeps t k _ rfl rfl rfl
  have stepped : ∀ q (t : State), Keeps t (applyQuadStep k q t) := by
    intro q t
    cases q with
    | unchanged => exact .refl t
    | up => exact applyChange_keeps t k _
    | down => exact applyChange_keeps t k _
    | illegal => exact illegalTransition_keeps t k
  have pinned : Keeps s (setPhasePin k ⟨a, b⟩ s) := .same
  unfold phaseChange decodePhase
  dsimp only
  repeat' split
  · exact pinned.trans ((referenced _ _).trans (stepped _ _))
  · exact pinned.trans (referenced _ _)
  · exact pinned

/-- The effects of a PRESET keep the conditions in every state of the track (R15). -/
theorem presetEffects_keeps (x : Int) : Keeps s (presetEffects k x s) := by
  unfold presetEffects
  dsimp only
  split
  · exact setTrack_same_keeps s k _ rfl rfl rfl
  · rename_i h
    refine setTrack_keeps s k _ (fun hs => ?_) id id
    rw [trackSound_iff] at hs ⊢
    simp_all [windowFrom]
  · rename_i hnd hnf
    obtain ⟨hd, hcfg⟩ := startSettle_enabled s { s.tracks[k] with pos := x, window := windowFrom { s.tracks[k] with pos := x } }
    refine Keeps.trans (setTrack_keeps s k _ (fun hs => ?_) (fun hu => absurd hu hd) (by rw [hcfg]; exact id))
      ((setTransit_keeps _ _).trans ((tellDistanceLines_keeps _ k _).trans (setTransit_keeps _ _)))
    obtain ⟨-, -, -, -, hf, -⟩ := (trackSound_iff _).1 hs
    refine startSettle_sound s hs hnd ?_ rfl rfl rfl rfl
    by_contra hcause
    exact hnf (hf.1 hcause)

theorem homeCapture_keeps : Keeps s (homeCapture k s) := by
  unfold homeCapture
  dsimp only
  have captured : Keeps s (presetEffects k s.tracks[k].homeValue (raiseTrack k (.homed k s.tracks[k].homeValue)
      (setTrack k { s.tracks[k] with pos := s.tracks[k].homeValue, homeArmed := false } s))) :=
    ((setTrack_same_keeps s k _ (by rfl) (by rfl) (by rfl)).trans (raiseTrack_keeps _ k _)).trans (presetEffects_keeps _ k _)
  split
  · exact captured
  · exact captured.trans (raiseTrack_keeps _ k _)

theorem indexEdge_keeps : Keeps s (indexEdge k s) := by
  unfold indexEdge
  split
  · exact homeCapture_keeps s k
  · exact .refl s

theorem sampleTimerExpiry_keeps : Keeps s (sampleTimerExpiry k s) := by
  unfold sampleTimerExpiry
  split
  · rename_i m hm
    refine setTrack_keeps s k _ (fun h => ?_) id id
    rw [trackSound_iff] at h ⊢
    simp_all
  · exact .refl s

theorem rejectSample_keeps (reason : Rejection) : Keeps s (rejectSample k reason s) :=
  (setTrack_same_keeps s k _ (by rfl) (by rfl) (by rfl)).trans (judgeSourceError_keeps _ k _ _ TrackCause.noConfusion)

theorem takeSample_keeps (r : Nat) : Keeps s (takeSample k r s) := by
  have accepted : Keeps s (setTrack k (acceptedTrack s.tracks[k] r) s) := setTrack_same_keeps s k _ rfl rfl rfl
  unfold takeSample
  dsimp only
  repeat' split
  · exact accepted
  · exact rejectSample_keeps s k _
  · exact accepted.trans (applyChange_keeps _ k _)

theorem transferCompletion_keeps (start : Bool) (raw : BitVec 32) (parity stop : Bool) :
    Keeps s (transferCompletion k start raw parity stop s) := by
  have ended : Keeps s (setTrack k { s.tracks[k] with transfer := false } s) := by
    refine setTrack_keeps s k _ (fun h => ?_) id id
    rw [trackSound_iff] at h ⊢
    simp_all
  unfold transferCompletion
  dsimp only
  repeat' split
  · exact ended.trans (rejectSample_keeps _ k _)
  · exact ended.trans (takeSample_keeps _ k _)
  · exact .refl s

theorem updateIntervalExpiry_keeps : Keeps s (updateIntervalExpiry k s) := by
  unfold updateIntervalExpiry
  split
  · exact (setTrack_same_keeps s k _ (by rfl) (by rfl) (by rfl)).trans (applyChange_keeps _ k _)
  · exact .refl s

/-! ### The effects of the commands of a track -/

/-- An enabled track starts from a DISABLED one, with its window, and its sample timer exactly with source SAMPLED (R7, R29). -/
theorem enableTrackUnit_keeps (hs : s.tracks[k].state = .disabled) : Keeps s (enableTrackUnit k s) := by
  refine Keeps.trans (setTrack_keeps s k (enabledTrack s k) (fun h => ?_) (fun _ => hs) ?_)
    ((setMode_keeps _ k _).trans (setTaken_keeps _ k _))
  · rw [trackSound_iff] at h
    have stopped : ¬s.tracks[k].sampleTimer.isSome = true := fun ht => (h.2.2.1.1 ht).1 hs
    have idle : s.tracks[k].transfer = false := by
      by_contra htr
      exact stopped (h.2.2.2.1 (by simpa using htr))
    unfold enabledTrack startSettle
    dsimp only
    split <;> simp_all [trackSound_iff, windowFrom]
  · rw [show (enabledTrack s k).cfg = s.tracks[k].cfg from (startSettle_enabled s _).2]
    exact id

/-- A track with no cue and its mark unit OFF may be DISABLED, its timers stopped (R14). -/
theorem setDisabled_keeps (cues : s.csu.schedules[k] = []) (off : s.marks[k].state = .off) :
    Keeps s (setTrack k (disabledTrack s.tracks[k]) s) where
  lines := .congr rfl rfl
  tracks h j := by
    show trackSound (s.tracks.set k (disabledTrack s.tracks[k]))[j] = true ∧
      ((s.tracks.set k (disabledTrack s.tracks[k]))[j].state = .disabled → s.csu.schedules[j] = [] ∧ s.marks[j].state = .off)
    rw [getElem_set]
    split
    · rename_i e
      subst e
      exact ⟨by simp [trackSound, disabledTrack], fun _ => ⟨cues, off⟩⟩
    · exact h j
  sizes := by
    rintro ⟨pool, limits, queues⟩
    refine ⟨pool, fun j => ?_, queues⟩
    show cueCount s j ≤ (s.tracks.set k (disabledTrack s.tracks[k]))[j].cfg.scheduleLimit
    rw [getElem_set]
    split
    · rename_i e
      subst e
      exact limits k
    · exact limits j
  claims := .congr rfl rfl

/-- The effects of a DISABLE_TRACK: the schedule is flushed and the mark unit OFF before the track is DISABLED (R14). -/
theorem disableTrackUnit_keeps : Keeps s (disableTrackUnit k s) := by
  have flushed : Keeps s (markOff k (bulkRemove k (fun _ => false) s)) := (bulkRemove_keeps s k _).trans (markOff_keeps _ k)
  unfold disableTrackUnit
  dsimp only
  rw [tellDistanceLines_eq]
  exact (flushed.trans (setTransit_keeps _ _)).trans
    (setDisabled_keeps _ k (by simp [markOff, bulkRemove, setTransit]) (by simp [markOff, bulkRemove, setTransit]))

theorem clearTrackFaultUnit_keeps (hs : s.tracks[k].state = .fault) : Keeps s (clearTrackFaultUnit k s) := by
  have enabled : s.tracks[k].state ≠ .disabled := by rw [hs]; exact TrackState.noConfusion
  obtain ⟨hd, hcfg⟩ := startSettle_enabled s
    { s.tracks[k] with cause := .absent, rejects := 0, windowIllegal := 0, clamp := none }
  refine Keeps.trans (setTrack_keeps s k (clearedTrack s s.tracks[k]) (fun h => ?_) (fun hu => absurd hu hd)
    (by rw [clearedTrack, hcfg]; exact id)) (setTransit_keeps _ _)
  exact startSettle_sound s h enabled rfl (((trackSound_iff _).1 h).2.1.2 enabled) rfl rfl rfl

/-- A new configuration keeps the source of an enabled track (R4). -/
theorem configuredTrack_keeps (c : TrackConfig)
    (hs : ¬(s.tracks[k].state ≠ .disabled ∧ changesDisabledOnly s.tracks[k].cfg c = true))
    (hlimit : cueCount s k ≤ c.scheduleLimit) : Keeps s (setTrack k (configuredTrack s.tracks[k] c) s) := by
  refine setTrack_keeps s k _ (fun h => ?_) id fun _ => hlimit
  have source : s.tracks[k].state ≠ .disabled → c.source = s.tracks[k].cfg.source := by
    intro hd
    by_contra hne
    have moved : (s.tracks[k].cfg.source != c.source) = true := bne_iff_ne.2 (Ne.symm hne)
    exact hs ⟨hd, by rw [changesDisabledOnly, moved]; rfl⟩
  rw [trackSound_iff] at h ⊢
  simp_all [configuredTrack]

theorem settleNotices_keeps : Keeps s (settleNotices k s) :=
  (takeAllCsuNotices_keeps s k).trans (takeMarkNotices_keeps _ k _)

theorem settleAllNotices_keeps : Keeps s (settleAllNotices k s) := by
  refine (settleNotices_keeps s k).trans (.foldl (fun t n => ?_) _ _)
  split
  · exact takeAllLineNotices_keeps t n
  · exact .refl t

/-- A shifted line keeps its state, and its pulse or its want of one (R18). -/
theorem shiftLine_sound (d : Int) (inhibited : Bool) (u : Line) : lineSound inhibited (shiftLine k d u) = lineSound inhibited u := by
  unfold shiftLine
  repeat' split
  · rename_i h
    simp [lineSound, h]
  all_goals rfl

/-- The shifts of a REBASE keep every condition (R18). -/
theorem rebaseShift_keeps (d : Int) : Keeps s (rebaseShift k d s) := by
  have track : Keeps s (setTrack k (shiftTrack d s.tracks[k]) s) := by
    refine setTrack_keeps s k _ (fun h => ?_) id id
    rw [trackSound_iff] at h ⊢
    by_cases hd : s.tracks[k].state = .disabled <;> simp_all [shiftTrack, windowFrom]
  have cues : ∀ t : State, Keeps t (setTaken k (t.csu.taken[k] + d) (setSchedule k (t.csu.schedules[k].map (shiftCue d)) t)) :=
    fun t => (setSchedule_keeps t k _ (le_of_eq (List.length_map _))).trans (setTaken_keeps _ k _)
  have mark : ∀ t : State, Keeps t (setMark k (shiftMark d t.marks[k]) t) := fun t =>
    setMark_keeps t k _ fun _ off => by unfold shiftMark; split <;> exact off
  exact ((track.trans (cues _)).trans (mark _)).trans
    (.foldl (fun t n => setLine_keeps t n _ fun h => (shiftLine_sound k d _ _).trans h) _ _)

end

end Sys2Proof.Machine
end
section
/-! SUPPORT. The link interfaces, the report queues and the host commands keep the four conditions, and so does every step (08 to 11). -/

namespace Sys2Proof.Machine

-- One proof at a time: proofs elaborated side by side would hold a thread each, and its stack.
set_option Elab.async false

section
variable (s : State) (l : LinkId)

/-! ### The report queues -/

theorem length_restand (p : Record → Bool) (st : Standing) (rs : List Record) : (restand p st rs).length = rs.length := by
  induction rs with
  | nil => rfl
  | cons r rs ih =>
    unfold restand
    split
    · rfl
    · rw [List.length_cons, ih, List.length_cons]

/-- A queue with no more records that accepts as before is sound as before (R173). -/
theorem queueSound_of_le {lost : Bool} {q q' : Queue} (h : queueSound lost q) (hr : q'.records.length ≤ q.records.length)
    (ha : q'.accepting = q.accepting) : queueSound lost q' := by
  obtain ⟨size, accepts, empty⟩ := h
  refine ⟨hr.trans size, ha.trans accepts, fun hl => ?_⟩
  rw [empty hl] at hr
  exact List.eq_nil_of_length_eq_zero (Nat.le_zero.1 hr)

theorem setQueue_le_keeps (q : Queue) (hr : q.records.length ≤ (queueOn s l).records.length)
    (ha : q.accepting = (queueOn s l).accepting) : Keeps s (setQueue l q s) :=
  setQueue_keeps s l q fun _ h => queueSound_of_le h hr ha

/-- What a queue offers is one of its records, with another standing (R175). -/
theorem offer_same {q q' : Queue} {r : Record} (h : q.offer = some (r, q')) :
    q'.records.length = q.records.length ∧ q'.accepting = q.accepting := by
  have e := offer_apart h
  simp only [Queue.apart, Queue.mk.injEq] at e
  exact ⟨by simpa using congrArg List.length e.1, e.2.2.2.2⟩

/-- The queue takes a record only below its size, and while it accepts (R174). -/
theorem take_sound {lost : Bool} {q : Queue} (r : Report) (h : queueSound lost q) : queueSound lost (q.take r) := by
  unfold Queue.take
  split
  · rename_i accepts
    have up : lost = false := by
      have := h.2.1.symm.trans accepts
      simpa using this
    split
    · rename_i room
      refine ⟨?_, h.2.1, fun hl => absurd hl (by simp [up])⟩
      simp only [Queue.append, List.length_append, List.length_cons, List.length_nil]
      omega
    · exact h
  · exact h

theorem reportOverflow_accepting (q : Queue) : q.reportOverflow.accepting = q.accepting := by
  unfold Queue.reportOverflow
  split <;> rfl

theorem length_reportOverflow (q : Queue) : q.reportOverflow.records.length ≤ q.records.length + 1 := by
  unfold Queue.reportOverflow
  split
  · exact Nat.le_succ _
  · simp [Queue.append]

/-- A release takes out at least one record, and an OVERFLOW record takes the place of one (R178, R179). -/
theorem release_le {q : Queue} {n restart : Nat} (hn : 1 ≤ n) (hq : 1 ≤ q.records.length) :
    (q.release n restart).records.length ≤ q.records.length ∧ (q.release n restart).accepting = q.accepting := by
  refine ⟨?_, reportOverflow_accepting _⟩
  unfold Queue.release
  refine (length_reportOverflow _).trans ?_
  simp only [List.length_drop]
  omega

theorem releasable_pos {q : Queue} {seq : Byte} {n : Nat} (h : q.releasable seq = some n) : 1 ≤ n ∧ 1 ≤ q.records.length := by
  simp only [Queue.releasable, Option.map_eq_some_iff] at h
  obtain ⟨i, hi, rfl⟩ := h
  have := (List.findIdx?_eq_some_iff_findIdx_eq.1 hi).1
  omega

/-! ### The outbound frames -/

theorem chooseReport_keeps : Keeps s (chooseReport l s) := by
  unfold chooseReport
  split
  · rename_i r q h
    obtain ⟨hr, ha⟩ := offer_same h
    exact (setLink_keeps s l _ (by rfl)).trans (setQueue_le_keeps _ l q (le_of_eq hr) ha)
  · exact .refl s

theorem pump_keeps : Keeps s (pump l s) := by
  unfold pump
  dsimp only
  repeat' split
  · exact .refl s
  · exact setLink_keeps s l _ rfl
  · exact .refl s
  · exact chooseReport_keeps s l

theorem kick_keeps : Keeps s (kick s) := pump_keeps s .link0

/-! ### The current command -/

theorem promoteLink_state (u : Link) : (promoteLink u).state = u.state := by
  unfold promoteLink
  split <;> rfl

theorem promote_keeps : Keeps s (promote l s) := setLink_keeps s l _ (promoteLink_state _)

theorem releaseBaud_keeps : Keeps s (releaseBaud l s) := by
  unfold releaseBaud
  split
  · exact .same
  · exact .refl s

/-- The current command ends in the next one, or in a full reset (R146, R156). -/
theorem endCurrent_keeps : Keeps s (endCurrent l s) := by
  unfold endCurrent
  dsimp only
  split
  · exact fullReset_keeps _ _ s
  · exact ((releaseBaud_keeps s l).trans (setLink_keeps _ l _ (by rfl))).trans (promote_keeps _ l)

/-! ### Received frames -/

/-- A valid-frame notice makes its link UP; the queue of a LOST link, which is empty, takes the LINK_RESUMED record (R163, R181). -/
theorem noticed_keeps (u : Link) : Keeps s (noticed l u s) where
  lines := .congr rfl rfl
  tracks := .congr rfl rfl rfl
  sizes := by
    rintro ⟨pool, limits, queues⟩
    refine ⟨pool, limits, both_links l ?_ ?_⟩
    · have up : isLost (noticed l u s) l = false := by simp [isLost_eq, noticed]
      have queue : queueOn (noticed l u s) l = if isLost s l then (queueOn s l).resume else queueOn s l := by
        simp [noticed]
      obtain ⟨size, accepts, empty⟩ := queues l
      rw [up, queue]
      split
      · rename_i lost
        have room : (queueOn s l).resume.records.length ≤ Config.queueSize := by
          simp [Queue.resume, Queue.append, empty lost, Config.queueSize]
        exact ⟨room, rfl, fun h => nomatch h⟩
      · rename_i lost
        exact ⟨size, by rw [accepts]; simp [lost], fun h => nomatch h⟩
    · have same : isLost (noticed l u s) (otherLink l) = isLost s (otherLink l) := by simp [isLost_eq, noticed]
      have queue : queueOn (noticed l u s) (otherLink l) = queueOn s (otherLink l) := by simp [noticed]
      rw [same, queue]
      exact queues (otherLink l)
  claims := by
    intro h r
    refine ⟨fun m hm => ?_, (h r).2⟩
    rcases eq_or_other l m with rfl | rfl
    · simp [noticed]
    · have same : linkOn (noticed l u s) (otherLink l) = linkOn s (otherLink l) := by simp [noticed]
      rw [same]
      exact (h r).1 _ hm

theorem acceptFrame_keeps (seq : Byte) (payload : List Byte) : Keeps s (acceptFrame l seq payload s) := by
  rw [acceptFrame_noticed]
  exact noticed_keeps s l _

theorem setReceiver_keeps (bs : List Byte) : Keeps s (setReceiver l bs s) := setLink_keeps s l _ rfl

theorem countBad_keeps : Keeps s (countBad l s) := setLink_keeps s l _ rfl

theorem rescan_keeps (truncated : Bool) (fuel : Nat) (bs : List Byte) : Keeps s (rescan l truncated fuel bs s) := by
  induction fuel generalizing s bs with
  | zero => exact setReceiver_keeps s l _
  | succ fuel ih =>
    unfold rescan
    dsimp only
    repeat' split
    · exact setReceiver_keeps s l _
    · exact (countBad_keeps s l).trans (ih _ _)
    · exact ih _ _
    · exact setReceiver_keeps s l _
    · exact (countBad_keeps s l).trans (ih _ _)
    · exact (acceptFrame_keeps s l _ _).trans (ih _ _)
    · exact (acceptFrame_keeps s l _ _).trans (ih _ _)
    · exact ih _ _

theorem judgeReceiver_keeps : Keeps s (judgeReceiver l s) := rescan_keeps s l _ _ _

theorem truncateReceiver_keeps : Keeps s (truncateReceiver l s) := by
  unfold truncateReceiver
  dsimp only
  split
  · exact judgeReceiver_keeps s l
  · exact ((judgeReceiver_keeps s l).trans (setLink_keeps _ l _ (by rfl))).trans (rescan_keeps _ l _ _ _)

theorem takeByte_keeps (b : Byte) : Keeps s (takeByte l b s) := by
  unfold takeByte
  dsimp only
  split
  · split
    · exact (judgeReceiver_keeps s l).trans (setReceiver_keeps _ l _)
    · exact judgeReceiver_keeps s l
  · exact (judgeReceiver_keeps s l).trans (setReceiver_keeps _ l _)

/-! ### The end of an outbound frame -/

theorem finishReply_keeps : Keeps s (finishReply l s) :=
  (setLink_keeps s l _ (by rfl)).trans (endCurrent_keeps _ l)

theorem sent_same (q : Queue) (seq : Byte) (restart : Nat) :
    (q.sent seq restart).records.length = q.records.length ∧ (q.sent seq restart).accepting = q.accepting := by
  unfold Queue.sent
  split
  · exact ⟨length_restand _ _ _, rfl⟩
  · exact ⟨rfl, rfl⟩

theorem finishReport_keeps (seq : Byte) : Keeps s (finishReport l seq s) := by
  obtain ⟨hr, ha⟩ := sent_same (queueOn s l) seq (afterMs s (linkOn s l).resend)
  exact (setLink_keeps s l _ (by rfl)).trans (setQueue_le_keeps _ l _ (le_of_eq hr) ha)

theorem finishOutbound_keeps (o : Outbound) : Keeps s (finishOutbound l o s) := by
  unfold finishOutbound
  split
  · exact finishReply_keeps s l
  · exact finishReport_keeps s l _

theorem finishShifted_keeps : Keeps s (finishShifted s) := by
  unfold finishShifted
  repeat' split
  · exact finishOutbound_keeps s .link1 _
  · exact .refl s
  · exact .refl s

theorem setSyncOut_keeps (b : Bool) : Keeps s (setSyncOut b s) := setLink_keeps s .link1 _ rfl

theorem shiftOut_keeps : Keeps s (shiftOut s) := by
  have chosen : Keeps s (if (linkOn s .link1).syncOut then pump .link1 (setSyncOut false s) else s) := by
    split
    · exact (setSyncOut_keeps s _).trans (pump_keeps _ _)
    · exact .refl s
  refine chosen.trans ?_
  show Keeps _ (match (linkOn (if (linkOn s .link1).syncOut then pump .link1 (setSyncOut false s) else s) .link1).outbound with
    | some o => _
    | none => _)
  generalize (if (linkOn s .link1).syncOut then pump .link1 (setSyncOut false s) else s) = t
  split
  · exact setLink_keeps t .link1 _ rfl
  · exact .refl t

theorem presentNext_keeps : Keeps s (presentNext s) := setSyncOut_keeps s _

/-! ### Commands on their way through a link -/

theorem present_keeps (seq : Byte) (payload : List Byte) : Keeps s (present l seq payload s) := by
  unfold present
  split
  · exact .refl s
  · exact acceptFrame_keeps s l _ _

theorem takeDuplicate_keeps : Keeps s (takeDuplicate l s) := setLink_keeps s l _ rfl

theorem reply_keeps (seq : Byte) (payload : List Byte) (a : Answer) : Keeps a.state (reply l seq payload a) := by
  unfold reply
  split
  · exact endCurrent_keeps _ l
  · exact setLink_keeps _ l _ rfl

/-- A host command keeps the conditions when its run does. -/
theorem hostCommand_keeps (run : LinkId → List Byte → State → Answer) (seq : Byte) (payload : List Byte)
    (h : ∀ t, Keeps t (run l payload t).state) : Keeps s (hostCommand run l seq payload s) := by
  have arrived : Keeps s (present l seq payload (kick s)) := (kick_keeps s).trans (present_keeps _ l _ _)
  unfold hostCommand execute
  dsimp only
  refine Keeps.trans (arrived.trans ?_) (kick_keeps _)
  repeat' split
  · exact takeDuplicate_keeps _ l
  · exact (h _).trans (reply_keeps l _ _ _)
  · exact .refl _

theorem duplicateFrame_keeps (seq : Byte) (payload : List Byte) : Keeps s (duplicateFrame l seq payload s) := by
  have arrived : Keeps s (present l seq payload (kick s)) := (kick_keeps s).trans (present_keeps _ l _ _)
  unfold duplicateFrame
  dsimp only
  refine Keeps.trans (arrived.trans ?_) (kick_keeps _)
  split
  · exact takeDuplicate_keeps _ l
  · exact .refl _

/-! ### Link loss (R165, R166, R180) -/

theorem handLoss_keeps (m : LossNotice) : Keeps s (handLoss m s) := by
  cases m <;> exact setTransit_keeps s _

theorem handLoss_claims (m : LossNotice) : (handLoss m s).claims = s.claims := by
  cases m <;> rfl

theorem releaseLost_keeps (r : Fin 20) : Keeps s (releaseLost l s r) := by
  unfold releaseLost
  repeat' split
  · exact setClaim_keeps s r _ (.inl rfl)
  · exact (setClaim_keeps s r _ (.inl rfl)).trans (handLoss_keeps _ _)
  · exact .refl s

/-- The entry of a lost link is released, and every other entry is as it was (R165). -/
theorem releaseLost_claims (r j : Fin 20) : (releaseLost l s r).claims[j] =
    if r = j ∧ s.claims[j].owner = some l then .free else s.claims[j] := by
  have freed : (s.claims.set r .free)[j] = if r = j then .free else s.claims[j] := getElem_set ..
  by_cases e : r = j
  · subst e
    rw [if_pos rfl] at freed
    unfold releaseLost
    repeat' split
    all_goals simp_all [handLoss_claims, -Fin.getElem_fin]
  · rw [if_neg e] at freed
    unfold releaseLost
    repeat' split
    all_goals simp_all [handLoss_claims, -Fin.getElem_fin]


theorem releaseLost_links (r : Fin 20) : (releaseLost l s r).links = s.links := by
  unfold releaseLost
  repeat' split
  · rfl
  · cases lossNotice r <;> rfl
  · rfl

/-- Every entry of a lost link among those visited is released, and no other entry or link changes (R165). -/
theorem foldl_releaseLost (rs : List (Fin 20)) :
    (rs.foldl (releaseLost l) s).links = s.links ∧ ∀ j, (rs.foldl (releaseLost l) s).claims[j] =
      if j ∈ rs ∧ s.claims[j].owner = some l then .free else s.claims[j] := by
  induction rs generalizing s with
  | nil => exact ⟨rfl, fun j => by simp⟩
  | cons r rs ih =>
    obtain ⟨links, claims⟩ := ih (releaseLost l s r)
    refine ⟨links.trans (releaseLost_links s l r), fun j => ?_⟩
    rw [List.foldl_cons, claims j, releaseLost_claims]
    by_cases own : s.claims[j].owner = some l
    · by_cases first : r = j
      · simp [own, first, -Fin.getElem_fin]
      · simp [own, first, Ne.symm first, -Fin.getElem_fin]
    · simp [own, -Fin.getElem_fin]

theorem mem_allResources (r : Fin 20) : r ∈ allResources := by fin_cases r <;> decide

theorem settleDuplicate_keeps : Keeps s (settleDuplicate l s) := by
  unfold settleDuplicate
  repeat' split
  · exact takeDuplicate_keeps s l
  · exact .refl s
  · exact .refl s

/-- A link that is LOST with its queue purged; its claims are still to be released (R165, R180). -/
def cutOff (l : LinkId) (s : State) : State := setQueue l (queueOn s l).purge (setLink l (lostLink (linkOn s l)) s)

/-- The end of a command outside a reset wait leaves the claims and the state of every link (R146). -/
theorem endCurrent_states (h : (linkOn s l).resetWait = false) :
    (endCurrent l s).claims = s.claims ∧ ∀ m, (linkOn (endCurrent l s) m).state = (linkOn s m).state := by
  have kept : ∀ t, t = releaseBaud l s → t.claims = s.claims ∧ t.links = s.links := by
    rintro t rfl
    unfold releaseBaud
    split <;> exact ⟨rfl, rfl⟩
  obtain ⟨claims, links⟩ := kept _ rfl
  have waits : (linkOn (releaseBaud l s) l).resetWait = false := by rw [linkOn, links]; exact h
  unfold endCurrent
  dsimp only
  rw [waits]
  refine ⟨claims, both_links l ?_ ?_⟩
  · simp [promote, promoteLink_state, linkOn, links]
  · simp [promote, linkOn, links]

/-- A link that is cut off has its claims released before the event ends (R165). -/
theorem releaseClaims_cutOff {u : State} (hu : Keeps (cutOff l s) u) (hc : u.claims = s.claims)
    (hl : (linkOn u (otherLink l)).state = (linkOn s (otherLink l)).state) : Keeps s (releaseClaims l u) := by
  obtain ⟨links, claims⟩ := foldl_releaseLost u l allResources
  have rest : Keeps (cutOff l s) (releaseClaims l u) :=
    hu.trans ((Keeps.foldl (fun t r => releaseLost_keeps t l r) _ _).trans (raiseUnlessLost_keeps _ _ _))
  refine ⟨rest.lines ∘ .congr rfl rfl, rest.tracks ∘ .congr rfl rfl rfl, fun h => rest.sizes ?_, fun h r => ?_⟩
  · obtain ⟨pool, limits, queues⟩ := h
    refine ⟨pool, limits, both_links l ?_ ?_⟩
    · have lost : isLost (cutOff l s) l = true := by simp [isLost_eq, cutOff, lostLink]
      rw [lost, cutOff, queueOn_setQueue_same]
      exact ⟨Nat.zero_le _, rfl, fun _ => rfl⟩
    · have same : isLost (cutOff l s) (otherLink l) = isLost s (otherLink l) := by simp [isLost_eq, cutOff]
      rw [same, cutOff, queueOn_setQueue_other]
      exact queues (otherLink l)
  · have claim : (releaseClaims l u).claims[r] = if s.claims[r].owner = some l then .free else s.claims[r] := by
      have := claims r
      rw [hc] at this
      simpa [releaseClaims, mem_allResources, -Fin.getElem_fin] using this
    rw [claim]
    split
    · exact ⟨fun _ h => (nomatch h), fun _ => rfl⟩
    · rename_i own
      refine ⟨fun m hm => ?_, (h r).2⟩
      rcases eq_or_other l m with rfl | rfl
      · exact absurd hm own
      · have state : (linkOn (releaseClaims l u) (otherLink l)).state = (linkOn s (otherLink l)).state := by
          rw [← hl]
          simp [releaseClaims, linkOn, links]
        rw [state]
        exact (h r).1 _ hm

/-- The loss of a link keeps the conditions: its queue is purged and its claims released (R165). -/
theorem loseLink_keeps : Keeps s (loseLink l s) := by
  refine (settleDuplicate_keeps s l).trans ?_
  unfold loseLink
  dsimp only
  generalize settleDuplicate l s = u
  show Keeps u (if (linkOn u l).replyPending && (linkOn (cutOff l u) l).resetWait then endCurrent l (cutOff l u)
    else releaseClaims l (if (linkOn u l).replyPending then endCurrent l (cutOff l u) else cutOff l u))
  by_cases waits : (linkOn (cutOff l u) l).resetWait = true
  · by_cases dropped : (linkOn u l).replyPending = true
    · rw [dropped, waits, Bool.and_self, if_pos rfl, endCurrent_resets _ _ waits]
      exact fullReset_keeps _ _ u
    · rw [Bool.eq_false_iff.2 dropped]
      exact releaseClaims_cutOff u l (.refl _) rfl (by simp [cutOff])
  · have waits := Bool.eq_false_iff.2 waits
    obtain ⟨claims, states⟩ := endCurrent_states (cutOff l u) l waits
    rw [waits, Bool.and_false, if_neg Bool.false_ne_true]
    split
    · exact releaseClaims_cutOff u l (endCurrent_keeps _ l) claims (by rw [states]; simp [cutOff])
    · exact releaseClaims_cutOff u l (.refl _) rfl (by simp [cutOff])

/-! ### The rows of the links -/

theorem receivedByte_keeps (b : Byte) : Keeps s (receivedByte l b s) := by
  unfold receivedByte
  dsimp only
  refine (kick_keeps s).trans ?_
  split
  · exact (takeByte_keeps _ _ _).trans (kick_keeps _)
  · split
    · exact (((finishShifted_keeps _).trans (shiftOut_keeps _)).trans (takeByte_keeps _ _ _)).trans
        ((presentNext_keeps _).trans (kick_keeps _))
    · exact .refl _

theorem completeFrame_keeps : Keeps s (completeFrame l s) := by
  unfold completeFrame
  dsimp only
  refine (kick_keeps s).trans ?_
  split
  · exact (judgeReceiver_keeps _ l).trans (kick_keeps _)
  · exact .refl _

theorem badLenDiscard_keeps : Keeps s (badLenDiscard l s) := by
  unfold badLenDiscard
  dsimp only
  refine (kick_keeps s).trans ?_
  split
  · exact (judgeReceiver_keeps _ l).trans (kick_keeps _)
  · exact .refl _

theorem gapTruncation_keeps : Keeps s (gapTruncation s) :=
  ((kick_keeps s).trans (truncateReceiver_keeps _ _)).trans (kick_keeps _)

theorem interruptOutbound_keeps : Keeps s (interruptOutbound s) := by
  unfold interruptOutbound
  repeat' split
  · exact .refl s
  · exact setLink_keeps s .link1 _ rfl
  · exact .refl s

theorem cs1nRise_keeps : Keeps s (cs1nRise s) := by
  have deselected : ∀ t : State, Keeps t (selectLink1 false t) := fun t => .same
  unfold cs1nRise
  dsimp only
  refine (kick_keeps s).trans ?_
  split
  · exact ((((deselected _).trans (setSyncOut_keeps _ _)).trans (interruptOutbound_keeps _)).trans
      (truncateReceiver_keeps _ _)).trans (kick_keeps _)
  · exact .refl _

theorem cs1nFall_keeps : Keeps s (cs1nFall s) := by
  have selected : ∀ t : State, Keeps t (selectLink1 true t) := fun t => .same
  unfold cs1nFall
  dsimp only
  refine (kick_keeps s).trans ?_
  split
  · exact .refl _
  · exact (selected _).trans (presentNext_keeps _)

theorem replySent_keeps : Keeps s (replySent l s) := by
  unfold replySent
  dsimp only
  refine (kick_keeps s).trans ?_
  repeat' split
  · exact (finishReply_keeps _ l).trans (kick_keeps _)
  · exact .refl _
  · exact .refl _

theorem sentNotice_keeps : Keeps s (sentNotice l s) := by
  unfold sentNotice
  dsimp only
  refine (kick_keeps s).trans ?_
  repeat' split
  · exact (finishReport_keeps _ l _).trans (kick_keeps _)
  · exact .refl _
  · exact .refl _

theorem pendingBaudRateApplied_keeps : Keeps s (pendingBaudRateApplied s) := by
  have rated : ∀ (t : State) b, Keeps t { t with baud := b } := fun t b => .same
  unfold pendingBaudRateApplied
  dsimp only
  refine (kick_keeps s).trans ?_
  repeat' split
  · exact (rated _ _).trans (kick_keeps _)
  · exact .refl _
  · exact .refl _

theorem linkLoss_keeps : Keeps s (linkLoss l s) := by
  unfold linkLoss
  dsimp only
  refine (kick_keeps s).trans ?_
  split
  · exact (loseLink_keeps _ l).trans (kick_keeps _)
  · exact .refl _

theorem reportRecord_keeps : Keeps s (reportRecord l s) := by
  unfold reportRecord
  dsimp only
  refine (kick_keeps s).trans ?_
  split
  · refine Keeps.trans (Keeps.trans (setTransit_keeps _ _) (setQueue_keeps _ l _ fun _ h => ?_)) (kick_keeps _)
    exact take_sound _ h
  · exact .refl _

theorem resendExpiry_keeps : Keeps s (resendExpiry l s) := by
  unfold resendExpiry
  dsimp only
  refine (kick_keeps s).trans ?_
  split
  · exact (setQueue_le_keeps _ l _ (le_of_eq (List.length_map _)) (by rfl)).trans (kick_keeps _)
  · exact .refl _

end

/-! ### The Load Supervisor beside the rest -/

section
variable (s : State) (n : LineId)

theorem setLoad_beside (u : Load) : Beside s (setLoad n u s) := ⟨rfl, rfl, rfl, fun _ => rfl, rfl, rfl, rfl⟩

theorem setSweep_beside (w : Sweep) : Beside s (setSweep w s) := ⟨rfl, rfl, rfl, fun _ => rfl, rfl, rfl, rfl⟩

theorem putForcing_beside (b : Bool) : Beside s (putForcing n b s) := ⟨rfl, rfl, rfl, fun _ => rfl, rfl, rfl, rfl⟩

theorem latch_beside (kind : FaultKind) : Beside s (latch n kind s) := by
  unfold latch
  split
  · exact .refl s
  · exact (setLoad_beside s n _).trans (raiseRouted_beside _ _ _)

theorem forceLine_beside : Beside s (forceLine n s) := by
  unfold forceLine
  split
  · exact .refl s
  · exact (setLoad_beside s n _).trans (putForcing_beside _ n _)

theorem latchForcing_beside (kind : FaultKind) : Beside s (latchForcing n kind s) := by
  unfold latchForcing
  split
  · exact .refl s
  · exact (latch_beside s n kind).trans (forceLine_beside _ n)

theorem raiseSweepDone_beside : Beside s (raiseSweepDone s) := by
  unfold raiseSweepDone
  repeat' split
  · exact raiseRouted_beside s _ _
  · exact raiseRouted_beside s (some _) _
  · exact raiseRouted_beside s _ _

theorem endSweep_beside : Beside s (endSweep s) := (setSweep_beside s _).trans (raiseSweepDone_beside _)

theorem visitLines_beside (ns : List LineId) : Beside s (visitLines ns s) := by
  induction ns generalizing s with
  | nil => exact endSweep_beside s
  | cons n ns ih =>
    rw [visitLines]
    dsimp only
    have visited : ∀ r c, Beside s (setResult n r (setSweep { s.sweep with current := c } s)) := fun _ _ =>
      (setSweep_beside s _).trans (setSweep_beside _ _)
    split
    · exact (visited _ _).trans (ih _)
    · split
      · exact (visited _ _).trans (ih _)
      · exact (setSweep_beside s _).trans (setSweep_beside _ _)

theorem endProbeAtLine_beside : Beside s (endProbeAtLine n s) := by
  unfold endProbeAtLine
  split
  · exact setLine_beside s n _ rfl
  · exact .refl s

theorem forcedLine_cfg (u : Line) : (forcedLine u).cfg = u.cfg := by
  unfold forcedLine
  split <;> rfl

theorem setForcedLine_beside : Beside s (setLine n (forcedLine s.lines[n]) s) := setLine_beside s n _ (forcedLine_cfg _)

theorem probeOverload_beside : Beside s (probeOverload n s) := by
  have forced : ∀ t, Beside t (forceProbedLine n t) := fun t => by
    unfold forceProbedLine
    split
    · exact ((setForcedLine_beside t n).trans (setLoad_beside _ n _)).trans (putForcing_beside _ n _)
    · exact forceLine_beside t n
  unfold probeOverload
  split
  · have stopped : Beside s (setView n .inactive (stopProbe (setResult n .overload s))) :=
      ((setSweep_beside s _).trans (setSweep_beside _ _)).trans (setLoad_beside _ n _)
    refine (stopped.trans ?_).trans (visitLines_beside _ _)
    split
    · exact endProbeAtLine_beside _ n
    · exact (latch_beside _ n _).trans (forced _)
  · exact latchForcing_beside s n _

theorem judge_beside : Beside s (judge n s) := by
  unfold judge
  split
  · exact latchForcing_beside s n _
  · split
    · exact latch_beside s n _
    · exact .refl s
  · exact probeOverload_beside s n
  · exact latchForcing_beside s n _
  · exact .refl s

theorem setLoad_judge_beside (u : Load) : Beside s (judge n (setLoad n u s)) :=
  (setLoad_beside s n u).trans (judge_beside _ n)

theorem takeAbandoned_beside (cause : Abandon) : Beside s (takeAbandoned n cause s) := by
  unfold takeAbandoned
  split
  · have stopped : Beside s (judge n (setView n (viewAfterAbandon cause) (stopProbe (setResult n .skippedBusy s)))) :=
      ((setSweep_beside s _).trans (setSweep_beside _ _)).trans (setLoad_judge_beside _ n _)
    refine stopped.trans ?_
    split
    · exact (setSweep_beside _ _).trans (endSweep_beside _)
    · exact visitLines_beside _ _
  · exact setLoad_judge_beside s n _

theorem takeLoadNotice_beside (m : LoadNotice) : Beside s (takeLoadNotice n m s) := by
  cases m with
  | begun => exact setLoad_judge_beside s n _
  | ended => exact setLoad_judge_beside s n _
  | probing =>
    rw [takeLoadNotice]
    split
    · exact (setSweep_beside s _).trans (setLoad_judge_beside _ n _)
    · exact .refl s
  | abandoned cause => exact takeAbandoned_beside s n cause

/-- What a line's taking of a forcing leaves as it is: among the rest the configuration of every line (R115). -/
theorem takeForcing_beside : Beside s (takeForcing n s) := by
  unfold takeForcing
  split
  · have emptied : Beside s (putToLsv n [] s) := ⟨rfl, rfl, rfl, fun _ => rfl, rfl, rfl, rfl⟩
    have taken : Beside s (putForcing n false (takeAllLoadNotices n s)) :=
      (emptied.trans (.foldl (fun t m => takeLoadNotice_beside t n m) _ _)).trans (putForcing_beside _ n _)
    refine taken.trans ?_
    generalize putForcing n false (takeAllLoadNotices n s) = u
    dsimp only
    repeat' split
    · exact .refl u
    · have ended : Beside u (endForcedProbe n u) := (setSweep_beside u _).trans (setSweep_beside _ _)
      exact ((ended.trans (setForcedLine_beside _ n)).trans (setLoad_judge_beside _ n _)).trans (visitLines_beside _ _)
    · exact (setForcedLine_beside u n).trans (setLoad_judge_beside _ n _)
  · exact .refl s

end

/-! ### The runs of the host commands -/

section
variable (l : LinkId) (p : List Byte) (s : State)

/-- A command with judged operands changes nothing when they are refused (R186). -/
theorem withArgs_keeps {α : Type} {args : Except Status α} {run : α → Answer} (h : ∀ a, Keeps s (run a).state) :
    Keeps s (withArgs args s run).state := by
  cases args with
  | ok a => exact h a
  | error _ => exact .refl s

theorem refuse_keeps {status : Status} {t : State} (h : Keeps s t) : Keeps s (refuse status t).state := h

theorem onTrack_keeps {k : TrackId} {run : Answer} (h : Keeps s run.state) : Keeps s (onTrack l k s run).state := by
  unfold onTrack
  split
  · exact .refl s
  · exact h

theorem onLine_keeps {n : LineId} {run : Answer} (h : Keeps s run.state) : Keeps s (onLine l n s run).state := by
  unfold onLine
  split
  · exact .refl s
  · exact h

theorem runPing_keeps : Keeps s (runPing l p s).state := withArgs_keeps s fun _ => .refl s

theorem runIdentify_keeps : Keeps s (runIdentify l p s).state := withArgs_keeps s fun _ => .refl s

theorem runSetLink_keeps : Keeps s (runSetLink l p s).state :=
  withArgs_keeps s fun a =>
    have rated : Keeps s { s with baud := baudAfterSetLink l a s.baud } := .same
    rated.trans (setLink_keeps _ a.target _ (by rfl))

theorem runQueryLink_keeps : Keeps s (runQueryLink l p s).state := withArgs_keeps s fun _ => .refl s

theorem runAckReports_keeps : Keeps s (runAckReports l p s).state := by
  refine withArgs_keeps s fun seq => ?_
  split
  · rename_i n h
    obtain ⟨hn, hq⟩ := releasable_pos h
    obtain ⟨hr, ha⟩ := release_le (restart := afterMs s (linkOn s l).resend) hn hq
    exact setQueue_le_keeps s l _ hr ha
  · exact .refl s

theorem runSetRoute_keeps : Keeps s (runSetRoute l p s).state := withArgs_keeps s fun _ => .same

theorem runReset_keeps : Keeps s (runReset l p s).state := by
  refine withArgs_keeps s fun _ => ?_
  split
  · exact .refl s
  · exact setLink_keeps s l _ rfl

theorem runClaim_keeps : Keeps s (runClaim l p s).state := by
  refine withArgs_keeps s fun ⟨r, policy⟩ => ?_
  dsimp only
  repeat' split
  · exact .refl s
  · exact setClaim_keeps s r _ (.inr ⟨l, rfl, ‹_›⟩)
  · exact .refl s

theorem runRelease_keeps : Keeps s (runRelease l p s).state := by
  refine withArgs_keeps s fun r => ?_
  split
  · exact setClaim_keeps s r _ (.inl rfl)
  · exact .refl s

theorem runQueryClaims_keeps : Keeps s (runQueryClaims l p s).state := withArgs_keeps s fun _ => .refl s

theorem runSetTrack_keeps : Keeps s (runSetTrack l p s).state := by
  refine withArgs_keeps s fun ⟨k, c⟩ => onTrack_keeps l s ?_
  repeat' split
  · exact .refl s
  · exact .refl s
  · exact configuredTrack_keeps s k c ‹_› (by omega)

theorem runEnableTrack_keeps : Keeps s (runEnableTrack l p s).state := by
  refine withArgs_keeps s fun k => onTrack_keeps l s ?_
  repeat' split
  · exact .refl s
  · exact .refl s
  · exact enableTrackUnit_keeps s k (not_not.1 ‹_›)

theorem runDisableTrack_keeps : Keeps s (runDisableTrack l p s).state := by
  refine withArgs_keeps s fun k => onTrack_keeps l s ?_
  split
  · exact .refl s
  · exact (settleNotices_keeps s k).trans (disableTrackUnit_keeps _ k)

theorem runPreset_keeps : Keeps s (runPreset l p s).state :=
  withArgs_keeps s fun ⟨k, x⟩ => onTrack_keeps l s (presetEffects_keeps s k x)

theorem runHome_keeps : Keeps s (runHome l p s).state := by
  refine withArgs_keeps s fun ⟨k, arm⟩ => onTrack_keeps l s ?_
  split
  · exact .refl s
  · cases arm <;> exact setTrack_same_keeps s k _ rfl rfl rfl

theorem runRebase_keeps : Keeps s (runRebase l p s).state := by
  refine withArgs_keeps s fun ⟨k, d⟩ => onTrack_keeps l s ?_
  dsimp only
  split
  · exact (settleAllNotices_keeps s k).trans (rebaseShift_keeps _ k d)
  · exact refuse_keeps s (settleAllNotices_keeps s k)

theorem runQueryTrack_keeps : Keeps s (runQueryTrack l p s).state := withArgs_keeps s fun _ => .refl s

theorem runClearTrackFault_keeps : Keeps s (runClearTrackFault l p s).state := by
  refine withArgs_keeps s fun k => onTrack_keeps l s ?_
  split
  · exact .refl s
  · exact .refl s
  · exact .refl s
  · split
    · exact .refl s
    · exact clearTrackFaultUnit_keeps s k ‹_›

theorem runSetSim_keeps : Keeps s (runSetSim l p s).state := by
  refine withArgs_keeps s fun ⟨k, v⟩ => onTrack_keeps l s ?_
  dsimp only
  split
  · exact .refl s
  · exact setTrack_same_keeps s k _ rfl rfl rfl

theorem runClearStats_keeps : Keeps s (runClearStats l p s).state :=
  withArgs_keeps s fun k => onTrack_keeps l s (setTrack_same_keeps s k _ rfl rfl rfl)

/-- A cue enters a schedule only past every check of R50. -/
theorem admission_none {a : AddCueArgs} (h : admission s a = none) : s.tracks[a.track].state ≠ .disabled ∧
    freeCount s ≠ 0 ∧ cueCount s a.track < s.tracks[a.track].cfg.scheduleLimit := by
  unfold admission at h
  repeat' split at h
  all_goals cases h
  exact ⟨‹_›, ‹_›, by omega⟩

theorem runAddCue_keeps : Keeps s (runAddCue l p s).state := by
  refine withArgs_keeps s fun a => onTrack_keeps l s (onLine_keeps l s ?_)
  dsimp only
  refine (finishEvaluation_keeps s).trans ?_
  split
  · exact .refl _
  · rename_i h
    obtain ⟨enabled, free, room⟩ := admission_none _ h
    exact insertRecord_keeps _ _ _ enabled free room

theorem runCancelCue_keeps : Keeps s (runCancelCue l p s).state := by
  refine withArgs_keeps s fun ⟨k, id⟩ => onTrack_keeps l s ?_
  dsimp only
  refine (finishEvaluation_keeps s).trans ?_
  split
  · exact setSchedule_keeps _ k _ List.eraseP_sublist.length_le
  · exact .refl _

theorem runFlush_keeps : Keeps s (runFlush l p s).state :=
  withArgs_keeps s fun ⟨k, _⟩ => onTrack_keeps l s ((finishEvaluation_keeps s).trans (bulkRemove_keeps _ k _))

theorem runQueryCue_keeps : Keeps s (runQueryCue l p s).state := by
  refine withArgs_keeps s fun ⟨k, key⟩ => ?_
  dsimp only
  refine (finishEvaluation_keeps s).trans ?_
  split <;> exact .refl _

theorem runQuerySchedule_keeps : Keeps s (runQuerySchedule l p s).state :=
  withArgs_keeps s fun ⟨_, _, _⟩ => finishEvaluation_keeps s

theorem runQueryPool_keeps : Keeps s (runQueryPool l p s).state := withArgs_keeps s fun _ => finishEvaluation_keeps s

theorem runSetMark_keeps : Keeps s (runSetMark l p s).state :=
  withArgs_keeps s fun ⟨k, _⟩ => onTrack_keeps l s (setMark_keeps s k _ fun _ off => off)

theorem runArmMarks_keeps : Keeps s (runArmMarks l p s).state := by
  refine withArgs_keeps s fun k => onTrack_keeps l s ?_
  repeat' split
  · exact .refl s
  · exact setMark_keeps s k _ fun hd _ => absurd hd ‹_›
  · exact .refl s

theorem runDisarmMarks_keeps : Keeps s (runDisarmMarks l p s).state :=
  withArgs_keeps s fun k => onTrack_keeps l s (markOff_keeps s k)

theorem runSetTemplate_keeps : Keeps s (runSetTemplate l p s).state := by
  refine withArgs_keeps s fun ⟨k, e, t⟩ => onTrack_keeps l s (onLine_keeps l s ?_)
  dsimp only
  split
  · exact .refl s
  · exact setMark_keeps s k _ fun _ off => off

theorem runQueryMarks_keeps : Keeps s (runQueryMarks l p s).state := withArgs_keeps s fun _ => .refl s

/-- A line goes from DISABLED to FAULT or OFF by its latched faults (R114). -/
theorem enableLine_keeps (n : LineId) (c : LineConfig) (hd : s.lines[n].cfg.enabled = false) (hc : c.enabled = true) :
    Keeps s (enableLine n c s) := by
  have disabled : (takeForcing n s).lines[n].cfg.enabled = false := by rw [(takeForcing_beside s n).cfg n]; exact hd
  refine (takeForcing_keeps s n).trans (setLine_keeps _ n _ fun h => ?_)
  obtain ⟨enabled, pulse, timer, -⟩ := (lineSound_iff _ _).1 h
  have off : (takeForcing n s).lines[n].state = .disabled := by
    by_contra hs
    rw [enabled.2 hs] at disabled
    cases disabled
  refine lineSound_quiet hc ?_ ?_ ?_
  · rw [off] at pulse
    simpa using pulse
  · rw [off] at timer
    simpa using timer
  · dsimp only
    split
    · exact .inr rfl
    · exact .inl rfl

theorem disableLine_keeps (n : LineId) (c : LineConfig) (hc : c.enabled = false) : Keeps s (disableLine n c s) := by
  have disabled : Keeps s (setLine n { s.lines[n] with cfg := c, state := .disabled, pulse := none, holdoffTimer := none } s) :=
    setLine_keeps s n _ fun _ => by simp [lineSound, hc]
  refine disabled.trans ?_
  unfold disableLine announceDisabling
  split
  · exact (raiseLine_keeps _ n _).trans (setTransit_keeps _ _)
  · exact setTransit_keeps _ _
  · exact .refl _

theorem applySetLine_keeps (n : LineId) (c : LineConfig) : Keeps s (applySetLine n c s) := by
  unfold applySetLine
  split
  · exact enableLine_keeps s n c ‹_› ‹_›
  · exact disableLine_keeps s n c ‹_›
  · rename_i hon hoff
    have same : c.enabled = s.lines[n].cfg.enabled := by
      cases he : s.lines[n].cfg.enabled <;> cases hc : c.enabled <;> simp_all
    refine setLine_keeps s n _ fun h => ?_
    rw [lineSound_iff] at h ⊢
    simpa [same] using h

theorem runSetLine_keeps : Keeps s (runSetLine l p s).state := by
  refine withArgs_keeps s fun ⟨n, c⟩ => onLine_keeps l s ?_
  split
  · exact .refl s
  · exact applySetLine_keeps s n c

theorem runSetProfile_keeps : Keeps s (runSetProfile l p s).state := withArgs_keeps s fun ⟨_, _⟩ => .same

theorem runForceLine_keeps : Keeps s (runForceLine l p s).state := by
  refine withArgs_keeps s fun ⟨n, width⟩ => onLine_keeps l s ?_
  have begins : (s.lines[n].state = .off ∨ s.lines[n].state = .test) →
      Keeps s (if s.inhibited then refuse .inhibited s else done (beginPulse n (forcedPulse s n width) s)).state := by
    intro hs
    split
    · exact .refl s
    · rename_i hi
      exact beginPulse_keeps s n _ hs (by simpa using hi)
  split
  · exact .refl s
  · exact .refl s
  · split <;> exact .refl s
  · repeat' split
    · exact .refl s
    · exact retrigger_keeps s n _ ‹_›
    · exact .refl s
  · exact begins (.inl ‹_›)
  · exact begins (.inr ‹_›)

theorem runQueryLine_keeps : Keeps s (runQueryLine l p s).state := withArgs_keeps s fun _ => .refl s

theorem releaseLine_keeps (n : LineId) : Keeps s (releaseLine n s) := by
  unfold releaseLine
  split
  · rename_i h
    refine setLine_keeps s n _ fun hs => ?_
    rw [lineSound_iff] at hs ⊢
    simp_all
  · exact .refl s

theorem runClearLineFault_keeps : Keeps s (runClearLineFault l p s).state := by
  refine withArgs_keeps s fun ⟨n, kinds⟩ => onLine_keeps l s ?_
  have cleared : Keeps s (releaseLine n (clearKinds n kinds (takeForcing n s))) :=
    ((takeForcing_keeps s n).trans (setLoad_keeps _ n _)).trans (releaseLine_keeps _ n)
  dsimp only
  split <;> exact cleared

theorem setPeriod_keeps (ms : Nat) : Keeps s (setPeriod ms s) := setSweep_keeps s _

theorem runSetSupervision_keeps : Keeps s (runSetSupervision l p s).state := by
  refine withArgs_keeps s fun ⟨ms, entry⟩ => ?_
  dsimp only
  split
  · exact onLine_keeps l s ((setPeriod_keeps s ms).trans (setLoad_judge_keeps _ _ _))
  · exact setPeriod_keeps s ms

theorem runStartSweep_keeps : Keeps s (runStartSweep l p s).state := by
  refine withArgs_keeps s fun _ => ?_
  repeat' split
  · exact .refl s
  · exact .refl s
  · exact (setTransit_keeps s _).trans (beginSweep_keeps _ _)

theorem runQuerySweep_keeps : Keeps s (runQuerySweep l p s).state := withArgs_keeps s fun _ => .refl s

theorem runUnknown_keeps : Keeps s (runUnknown l p s).state := .refl s

end

/-! ### Every command and every step -/

/-- Every command completes, and keeps the four conditions. -/
theorem exec_keeps (i : Instr) (s : State) : ∃ t, exec i s = .next t ∧ Keeps s t := by
  cases i with
  | powerOn => exact ⟨_, rfl, fullReset_keeps _ s s⟩
  | resetn => exact ⟨_, rfl, fullReset_keeps _ s s⟩
  | ping l seq args => exact ⟨_, rfl, hostCommand_keeps s l runPing seq _ (runPing_keeps l _)⟩
  | identify l seq args => exact ⟨_, rfl, hostCommand_keeps s l runIdentify seq _ (runIdentify_keeps l _)⟩
  | setLink l seq args => exact ⟨_, rfl, hostCommand_keeps s l runSetLink seq _ (runSetLink_keeps l _)⟩
  | queryLink l seq args => exact ⟨_, rfl, hostCommand_keeps s l runQueryLink seq _ (runQueryLink_keeps l _)⟩
  | ackReports l seq args => exact ⟨_, rfl, hostCommand_keeps s l runAckReports seq _ (runAckReports_keeps l _)⟩
  | setRoute l seq args => exact ⟨_, rfl, hostCommand_keeps s l runSetRoute seq _ (runSetRoute_keeps l _)⟩
  | reset l seq args => exact ⟨_, rfl, hostCommand_keeps s l runReset seq _ (runReset_keeps l _)⟩
  | claim l seq args => exact ⟨_, rfl, hostCommand_keeps s l runClaim seq _ (runClaim_keeps l _)⟩
  | release l seq args => exact ⟨_, rfl, hostCommand_keeps s l runRelease seq _ (runRelease_keeps l _)⟩
  | queryClaims l seq args => exact ⟨_, rfl, hostCommand_keeps s l runQueryClaims seq _ (runQueryClaims_keeps l _)⟩
  | setTrack l seq args => exact ⟨_, rfl, hostCommand_keeps s l runSetTrack seq _ (runSetTrack_keeps l _)⟩
  | enableTrack l seq args => exact ⟨_, rfl, hostCommand_keeps s l runEnableTrack seq _ (runEnableTrack_keeps l _)⟩
  | disableTrack l seq args => exact ⟨_, rfl, hostCommand_keeps s l runDisableTrack seq _ (runDisableTrack_keeps l _)⟩
  | preset l seq args => exact ⟨_, rfl, hostCommand_keeps s l runPreset seq _ (runPreset_keeps l _)⟩
  | home l seq args => exact ⟨_, rfl, hostCommand_keeps s l runHome seq _ (runHome_keeps l _)⟩
  | rebase l seq args => exact ⟨_, rfl, hostCommand_keeps s l runRebase seq _ (runRebase_keeps l _)⟩
  | queryTrack l seq args => exact ⟨_, rfl, hostCommand_keeps s l runQueryTrack seq _ (runQueryTrack_keeps l _)⟩
  | clearTrackFault l seq args => exact ⟨_, rfl, hostCommand_keeps s l runClearTrackFault seq _ (runClearTrackFault_keeps l _)⟩
  | setSim l seq args => exact ⟨_, rfl, hostCommand_keeps s l runSetSim seq _ (runSetSim_keeps l _)⟩
  | clearStats l seq args => exact ⟨_, rfl, hostCommand_keeps s l runClearStats seq _ (runClearStats_keeps l _)⟩
  | addCue l seq args => exact ⟨_, rfl, hostCommand_keeps s l runAddCue seq _ (runAddCue_keeps l _)⟩
  | cancelCue l seq args => exact ⟨_, rfl, hostCommand_keeps s l runCancelCue seq _ (runCancelCue_keeps l _)⟩
  | flush l seq args => exact ⟨_, rfl, hostCommand_keeps s l runFlush seq _ (runFlush_keeps l _)⟩
  | queryCue l seq args => exact ⟨_, rfl, hostCommand_keeps s l runQueryCue seq _ (runQueryCue_keeps l _)⟩
  | querySchedule l seq args => exact ⟨_, rfl, hostCommand_keeps s l runQuerySchedule seq _ (runQuerySchedule_keeps l _)⟩
  | queryPool l seq args => exact ⟨_, rfl, hostCommand_keeps s l runQueryPool seq _ (runQueryPool_keeps l _)⟩
  | setMark l seq args => exact ⟨_, rfl, hostCommand_keeps s l runSetMark seq _ (runSetMark_keeps l _)⟩
  | armMarks l seq args => exact ⟨_, rfl, hostCommand_keeps s l runArmMarks seq _ (runArmMarks_keeps l _)⟩
  | disarmMarks l seq args => exact ⟨_, rfl, hostCommand_keeps s l runDisarmMarks seq _ (runDisarmMarks_keeps l _)⟩
  | setTemplate l seq args => exact ⟨_, rfl, hostCommand_keeps s l runSetTemplate seq _ (runSetTemplate_keeps l _)⟩
  | queryMarks l seq args => exact ⟨_, rfl, hostCommand_keeps s l runQueryMarks seq _ (runQueryMarks_keeps l _)⟩
  | setLine l seq args => exact ⟨_, rfl, hostCommand_keeps s l runSetLine seq _ (runSetLine_keeps l _)⟩
  | setProfile l seq args => exact ⟨_, rfl, hostCommand_keeps s l runSetProfile seq _ (runSetProfile_keeps l _)⟩
  | forceLine l seq args => exact ⟨_, rfl, hostCommand_keeps s l runForceLine seq _ (runForceLine_keeps l _)⟩
  | queryLine l seq args => exact ⟨_, rfl, hostCommand_keeps s l runQueryLine seq _ (runQueryLine_keeps l _)⟩
  | clearLineFault l seq args => exact ⟨_, rfl, hostCommand_keeps s l runClearLineFault seq _ (runClearLineFault_keeps l _)⟩
  | setSupervision l seq args => exact ⟨_, rfl, hostCommand_keeps s l runSetSupervision seq _ (runSetSupervision_keeps l _)⟩
  | startSweep l seq args => exact ⟨_, rfl, hostCommand_keeps s l runStartSweep seq _ (runStartSweep_keeps l _)⟩
  | querySweep l seq args => exact ⟨_, rfl, hostCommand_keeps s l runQuerySweep seq _ (runQuerySweep_keeps l _)⟩
  | unknownCommand l seq code args =>
    refine ⟨_, rfl, ?_⟩
    split
    · exact .refl s
    · exact hostCommand_keeps s l runUnknown seq _ (runUnknown_keeps l _)
  | duplicate l seq payload => exact ⟨_, rfl, duplicateFrame_keeps s l seq payload⟩
  | completeFrame l => exact ⟨_, rfl, completeFrame_keeps s l⟩
  | gapTruncation => exact ⟨_, rfl, gapTruncation_keeps s⟩
  | cs1nRise => exact ⟨_, rfl, cs1nRise_keeps s⟩
  | badLenDiscard l => exact ⟨_, rfl, badLenDiscard_keeps s l⟩
  | replySent l => exact ⟨_, rfl, replySent_keeps s l⟩
  | sentNotice l => exact ⟨_, rfl, sentNotice_keeps s l⟩
  | pendingBaudRateApplied => exact ⟨_, rfl, pendingBaudRateApplied_keeps s⟩
  | linkLoss l => exact ⟨_, rfl, linkLoss_keeps s l⟩
  | flushLossPolicy => exact ⟨_, rfl, flushLossPolicy_keeps s⟩
  | markUnitOffNotice k => exact ⟨_, rfl, markUnitOffNotice_keeps s k⟩
  | lineLossPolicy n => exact ⟨_, rfl, lineLossPolicy_keeps s n⟩
  | reportRecord l => exact ⟨_, rfl, reportRecord_keeps s l⟩
  | resendExpiry l => exact ⟨_, rfl, resendExpiry_keeps s l⟩
  | phaseChange k a b => exact ⟨_, rfl, phaseChange_keeps s k a b⟩
  | indexEdge k => exact ⟨_, rfl, indexEdge_keeps s k⟩
  | sampleTimerExpiry k => exact ⟨_, rfl, sampleTimerExpiry_keeps s k⟩
  | transferCompletion k start raw parity stop => exact ⟨_, rfl, transferCompletion_keeps s k start raw parity stop⟩
  | updateIntervalExpiry k => exact ⟨_, rfl, updateIntervalExpiry_keeps s k⟩
  | settleExpiry k => exact ⟨_, rfl, settleExpiry_keeps s k⟩
  | windowEnd k => exact ⟨_, rfl, windowEnd_keeps s k⟩
  | evaluationEvent k => exact ⟨_, rfl, evaluationEvent_keeps s k⟩
  | firingRequest n => exact ⟨_, rfl, firingRequest_keeps s n⟩
  | discontinuityNotice k => exact ⟨_, rfl, discontinuityNotice_keeps s k⟩
  | resumeNotice k => exact ⟨_, rfl, resumeNotice_keeps s k⟩
  | freezeNotice k => exact ⟨_, rfl, freezeNotice_keeps s k⟩
  | spawnRequest k => exact ⟨_, rfl, spawnRequest_keeps s k⟩
  | markEdge k edge => exact ⟨_, rfl, markEdge_keeps s k edge⟩
  | markPositionChange k => exact ⟨_, rfl, markPositionChange_keeps s k⟩
  | markFaultNotice k => exact ⟨_, rfl, markFaultNotice_keeps s k⟩
  | markDiscontinuityNotice k => exact ⟨_, rfl, markDiscontinuityNotice_keeps s k⟩
  | distancePulseEnd n => exact ⟨_, rfl, distancePulseEnd_keeps s n⟩
  | trackNoticeAtLine n => exact ⟨_, rfl, trackNoticeAtLine_keeps s n⟩
  | timePulseEnd n => exact ⟨_, rfl, timePulseEnd_keeps s n⟩
  | maxOnExpiry n => exact ⟨_, rfl, maxOnExpiry_keeps s n⟩
  | holdoffExpiry n => exact ⟨_, rfl, holdoffExpiry_keeps s n⟩
  | inhibitAssertion => exact ⟨_, rfl, inhibitAssertion_keeps s⟩
  | inhibitRelease => exact ⟨_, rfl, inhibitRelease_keeps s⟩
  | abortByInhibit => exact ⟨_, rfl, abortByInhibit_keeps s⟩
  | senseEvent n c => exact ⟨_, rfl, senseEvent_keeps s n c⟩
  | forcing n => exact ⟨_, rfl, takeForcing_keeps s n⟩
  | driveViewNotice n => exact ⟨_, rfl, driveViewNotice_keeps s n⟩
  | blankingExpiry n => exact ⟨_, rfl, blankingExpiry_keeps s n⟩
  | periodTimerExpiry => exact ⟨_, rfl, periodTimerExpiry_keeps s⟩
  | probeStart n => exact ⟨_, rfl, probeStart_keeps s n⟩
  | probeTimerExpiry => exact ⟨_, rfl, probeTimerExpiry_keeps s⟩
  | abandonment n => exact ⟨_, rfl, abandonment_keeps s n⟩
  | receivedByte l b => exact ⟨_, rfl, receivedByte_keeps s l b⟩
  | cs1nFall => exact ⟨_, rfl, cs1nFall_keeps s⟩

/-- A step keeps the conditions: the command it takes off the queue does, and so does an idle step. -/
theorem step_keeps {s t : State} (h : step s = .next t) : Keeps s t := by
  unfold step at h
  split at h
  · rename_i c rest _
    obtain ⟨u, hu, keeps⟩ := exec_keeps c { s with pending := rest }
    rw [hu] at h
    cases h
    exact Keeps.trans .same keeps
  · cases h
    exact .same

/-- Settles O56: the lines part of what every command keeps. -/
theorem everyStepKeepsLinesSound : Obligations.EveryStepKeepsLinesSound := fun _ _ h hstep => (step_keeps hstep).lines h

/-- Settles O57: the tracks part of what every command keeps. -/
theorem everyStepKeepsTracksSound : Obligations.EveryStepKeepsTracksSound := fun _ _ h hstep => (step_keeps hstep).tracks h

/-- Settles O58: the sizes part of what every command keeps. -/
theorem everyStepKeepsSizes : Obligations.EveryStepKeepsSizes := fun _ _ h hstep => (step_keeps hstep).sizes h

/-- Settles O59: the claims part of what every command keeps. -/
theorem everyStepKeepsClaimsSound : Obligations.EveryStepKeepsClaimsSound := fun _ _ h hstep => (step_keeps hstep).claims h

/-- Settles O60: the reset values meet the four conditions. -/
theorem resetIsSound : Obligations.ResetIsSound := afterReset_sound .power .rest 0 []

end Sys2Proof.Machine
end

section
/-! SUPPORT. The statements about the step and about what every reset leaves of the schedules, lines and links (03, 06 to 10). -/

namespace Sys2Proof.Machine

-- One proof at a time: proofs elaborated side by side would hold a thread each, and its stack.
set_option Elab.async false

/-- Settles O1: a step is `exec` of the front command, and an idle tick without one. -/
theorem stepRunsTheFrontCommand : Obligations.StepRunsTheFrontCommand := by
  unfold Obligations.StepRunsTheFrontCommand
  refine ⟨fun c rest s h => ?_, fun s h => ?_⟩
  · rw [step, h]
  · have idles : step s = .next (idle s) := by simp only [step, h]
    exact idles

/-- Settles O3: the reset values of the CSU and of the mark units, as every reset leaves them. -/
theorem resetLeavesSchedulesAndMarksEmpty : Obligations.ResetLeavesSchedulesAndMarksEmpty := by
  unfold Obligations.ResetLeavesSchedulesAndMarksEmpty
  intro cause s t h
  obtain ⟨-, hc, hm⟩ := h.sameTracks
  have hc : t.csu = .reset := hc
  have mark : ∀ k : TrackId, t.marks[k] = .reset := fun k => by rw [hm]; exact Vector.getElem_replicate _
  have schedule : ∀ k : TrackId, t.csu.schedules[k] = [] := fun k => by rw [hc]; exact Vector.getElem_replicate _
  refine ⟨?_, by rw [hc]; rfl, by rw [hc]; rfl, fun k => ⟨schedule k, ?_⟩, fun n => ?_, fun k => ?_⟩
  · simp only [freeCount, pendingCues, cueCount, schedule]
    rfl
  · rw [hc]
    exact Vector.getElem_replicate _
  · rw [pendingCount, hc]
    rfl
  · rw [mark k]
    exact ⟨rfl, rfl, rfl, rfl, rfl, rfl, rfl, fun e => Vector.getElem_replicate _⟩

/-! ### A full reset in full -/

/-- What the LSV holds of a line as a reset ends: STUCK is latched at once for a stage that presents STUCK_ON (R123, R127). -/
def startLoad (c : SenseCond) : Load := { Load.reset c with latched := ⟨false, false, c == .stuckOn⟩ }

/-- The INHIBIT record of an INH pin found high at a reset (R117). -/
def startReports (s : State) : List Report := if s.pins.inhibit then [.inhibit true] else []

/-- The reset values after the INH pin has been judged (R117). -/
def inhibitStart (cause : ResetCause) (s : State) : State :=
  { State.afterReset cause s.pins s.now s.pending with
    inhibited := s.pins.inhibit
    transit := { Transit.empty with inhibitLsv := s.pins.inhibit, toQueue := ⟨startReports s, startReports s⟩ } }

/-- The reset values after the INH pin and the stages of these lines have been judged (R117, R123). -/
def judgedStart (cause : ResetCause) (s : State) (ns : List LineId) : State :=
  { inhibitStart cause s with
    loads := Vector.ofFn fun n => if n ∈ ns then startLoad s.pins.sense[n] else .reset s.pins.sense[n]
    transit := { (inhibitStart cause s).transit with
      toQueue := ⟨startReports s ++ (ns.filter fun n => s.pins.sense[n] == .stuckOn).map fun n => .lineFault n .stuck,
        startReports s⟩ } }

section
variable (cause : ResetCause) (s : State)

theorem inhibitAtReset_afterReset :
    inhibitAtReset (State.afterReset cause s.pins s.now s.pending) = inhibitStart cause s := by
  have resetLine : ∀ u : State, u.lines = Vector.replicate 16 .reset → ∀ n : LineId, u.lines[n] = .reset := fun u hu n => by
    rw [hu]; exact Vector.getElem_replicate _
  generalize hp : s.pins.inhibit = i
  cases i with
  | false =>
    rw [inhibitAtReset, if_neg (by rw [State.afterReset, hp]; decide), inhibitStart, startReports, hp]
    rfl
  | true =>
    have kept : ∀ u : State, u.lines = Vector.replicate 16 .reset → inhibitedLines u allLines = u := fun u hu => by
      have lines : (Vector.ofFn fun n => if n ∈ allLines then inhibitedLine u.now u.lines[n] else u.lines[n]) = u.lines := by
        rw [hu]; ext n hn : 1; simp [mem_allLines, inhibitedLine, Line.reset]
      have quiet : (allLines.filter fun n => u.lines[n].state = .on) = [] := by
        rw [List.filter_eq_nil_iff]; intro n _; rw [resetLine u hu n]; decide
      have told : (Vector.ofFn fun n => if n ∈ allLines then u.transit.toLsv[n] ++ inhibitNotices u.lines[n].state
          else u.transit.toLsv[n]) = u.transit.toLsv := by
        ext n hn : 1; simp [mem_allLines, hu, inhibitNotices, Line.reset]
      rw [inhibitedLines, lines, quiet, told]
      rfl
    have start : ∀ n : LineId, (State.afterReset cause s.pins s.now s.pending).lines[n] = .reset := resetLine _ rfl
    rw [inhibitAtReset, if_pos (by rw [State.afterReset, hp]), assertInhibit_eq _ (fun n => by rw [start n]; decide),
      kept _ rfl, inhibitStart, startReports, hp]
    rfl

/-- A stage is judged at the reset values of its line: STUCK_ON latches STUCK and reports it on LINK0, and a DISABLED line is not
forced (R115, R123, R127). -/
theorem judge_reset {u : State} {n : LineId} {c : SenseCond} (hload : u.loads[n] = .reset c)
    (hline : u.lines[n].state = .disabled) (hroute : routeOwned (setLoad n (startLoad c) u) (lineOwner u n) = some .link0) :
    judge n u = if c = .stuckOn then raiseTo .link0 (.lineFault n .stuck) (setLoad n (startLoad c) u) else u := by
  have untouched : c ≠ .stuckOn → judge n u = u := fun hc => by
    rw [judge, hload]
    cases c with
    | stuckOn => exact absurd rfl hc
    | normal | noLoad | overcurrent => rfl
  split
  case isFalse hc => exact untouched hc
  case isTrue hc =>
    subst hc
    have latched : latch n .stuck u = raiseTo .link0 (.lineFault n .stuck) (setLoad n (startLoad .stuckOn) u) := by
      rw [latch, hload, if_neg (by decide), raiseLine]
      exact congrArg (fun d => raiseRouted d (.lineFault n .stuck) (setLoad n (startLoad .stuckOn) u)) hroute
    have forcing : judge n u = latchForcing n .stuck u := by rw [judge, hload]; rfl
    rw [forcing, latchForcing, hload, if_neg (by decide), latched, forceLine, if_pos (.inl hline)]

/-- The stage of one more line is judged as a reset ends (R123, R127). -/
theorem judge_judgedStart {ns : List LineId} {n : LineId} (hn : n ∉ ns) :
    judge n (judgedStart cause s ns) = judgedStart cause s (ns ++ [n]) := by
  have load : (judgedStart cause s ns).loads[n] = .reset s.pins.sense[n] := by simp [judgedStart, hn]
  have line : (judgedStart cause s ns).lines[n] = .reset := Vector.getElem_replicate _
  have free : lineOwner (judgedStart cause s ns) n = none :=
    congrArg Claim.owner (Vector.getElem_replicate (n := 20) (a := Claim.free) _)
  have loads : (judgedStart cause s ns).loads.set n (startLoad s.pins.sense[n]) = (judgedStart cause s (ns ++ [n])).loads :=
    set_ofFn_ite_mem (fun j : LineId => startLoad s.pins.sense[j]) (fun j => .reset s.pins.sense[j]) ns n
  rw [judge_reset load (by rw [line]; rfl) (by rw [free]; rfl)]
  split
  case isTrue hs =>
    have stuck : (ns ++ [n]).filter (fun n => s.pins.sense[n] == .stuckOn) =
        ns.filter (fun n => s.pins.sense[n] == .stuckOn) ++ [n] := by
      rw [List.filter_append, List.filter_singleton, hs]
      rfl
    rw [setLoad, loads, judgedStart, judgedStart, stuck, List.map_append, ← List.append_assoc]
    rfl
  case isFalse hs =>
    have same : startLoad s.pins.sense[n] = .reset s.pins.sense[n] := by
      rw [startLoad, beq_eq_false_iff_ne.2 hs]
      rfl
    have other : (ns ++ [n]).filter (fun n => s.pins.sense[n] == .stuckOn) = ns.filter (fun n => s.pins.sense[n] == .stuckOn) := by
      rw [List.filter_append, List.filter_singleton, beq_eq_false_iff_ne.2 hs]
      exact List.append_nil _
    rw [same, ← load, set_getElem_same] at loads
    simp only [judgedStart, other] at loads ⊢
    rw [loads]

/-- A full reset leaves the reset values, with the INH pin and every stage judged (R117, R123). -/
theorem fullReset_eq : fullReset cause s = judgedStart cause s allLines := by
  have start : inhibitStart cause s = judgedStart cause s [] := by
    have loads : (Vector.ofFn fun n : LineId => Load.reset s.pins.sense[n]) = (inhibitStart cause s).loads := by
      ext n hn : 1
      simp [inhibitStart, State.afterReset]
    simp only [judgedStart, List.not_mem_nil, if_false, loads, List.filter_nil, List.map_nil, List.append_nil]
    rfl
  have judged : ∀ ns : List LineId, ns.Nodup →
      ns.foldl (fun u n => judge n u) (judgedStart cause s []) = judgedStart cause s ns := fun ns => by
    induction ns using List.reverseRecOn with
    | nil => exact fun _ => rfl
    | append_singleton ns n ih =>
      intro hd
      obtain ⟨hns, -, hn⟩ := List.nodup_append.mp hd
      rw [List.foldl_append, ih hns, List.foldl_cons, List.foldl_nil]
      exact judge_judgedStart cause s fun hmem => hn n hmem n (List.mem_singleton_self n) rfl
  rw [fullReset, inhibitAtReset_afterReset, senseAtReset, start, judged allLines nodup_allLines]

end

/-- Outside the links and queues every reset leaves the reset values, with the pins judged (R6, R117, R123). -/
theorem ResetsTo.device {cause : ResetCause} {s t : State} (h : ResetsTo cause s t) :
    t.device = (judgedStart cause s allLines).device := by
  rw [h.eq_fullReset]
  split
  · rw [kick_device, fullReset_eq]
  · rw [fullReset_eq]

/-- Settles O4: the reset values of the lines and profiles, and what the pins present for the inhibit and the LSV. -/
theorem resetLeavesLinesDisabled : Obligations.ResetLeavesLinesDisabled := by
  unfold Obligations.ResetLeavesLinesDisabled
  intro cause s t h
  obtain ⟨-, -, -, hlines, hprofiles, hinhibit, hloads, hsweep, -⟩ := device_fields h.device
  have line : ∀ n : LineId, t.lines[n] = .reset := fun n => by rw [hlines]; exact Vector.getElem_replicate _
  have load : ∀ n : LineId, t.loads[n] = startLoad s.pins.sense[n] := fun n => by
    rw [hloads]; simp [judgedStart, mem_allLines]
  refine ⟨fun n => ⟨line n, ?_⟩, fun i => ?_, hinhibit, load, hsweep⟩
  · rw [outPin, line n]
    rfl
  · rw [hprofiles]
    exact Vector.getElem_replicate _

section
variable (cause : ResetCause) (s : State)

/-- What a full reset leaves, and what it leaves of LINK0 after the choice of a frame that follows a RESET command (R148, R156). -/
theorem resetsTo_cases {t : State} (h : ResetsTo cause s t) (p : State → Prop)
    (hother : cause ≠ .command → p (judgedStart cause s allLines))
    (hcommand : cause = .command → p (kick (judgedStart cause s allLines))) : p t := by
  rw [h.eq_fullReset, fullReset_eq]
  split
  case isTrue hc => exact hcommand hc
  case isFalse hc => exact hother hc

end

/-- Settles O5: LINK0 begins the RESET record behind a RESET command; but for that the links and queues are at their reset values,
and what the pins present is on its way to the queues and to the LSV. -/
theorem resetLeavesLinksIdle : Obligations.ResetLeavesLinksIdle := by
  unfold Obligations.ResetLeavesLinksIdle
  intro cause s t h
  obtain ⟨-, -, -, -, -, -, -, -, hbaud, hroute, hclaims, htransit, -⟩ := device_fields h.device
  refine ⟨hroute, hbaud, fun r => ?claims, ?sdo, ?attn, fun hc => ?txd, fun l => ?apart, ?link1, ?link0, ?transit⟩
  case claims =>
    rw [hclaims]
    exact Vector.getElem_replicate _
  case sdo =>
    have low : ∀ u : State, u.pins = s.pins → nextOutByte u = 0 → sdo1 u = if s.pins.selected then some false else none :=
      fun u hp hn => by rw [sdo1, hp, hn]; rfl
    exact resetsTo_cases cause s h (fun t => sdo1 t = _) (fun _ => low _ rfl rfl) (fun _ => low _ rfl rfl)
  case attn => exact resetsTo_cases cause s h (fun t => attn1 t = true) (fun _ => rfl) (fun _ => rfl)
  case txd =>
    exact resetsTo_cases cause s h (fun t => txd0 t = _) (fun _ => rfl) (fun e => absurd e hc)
  case apart =>
    refine resetsTo_cases cause s h (fun t => (linkOn t l).apart = _ ∧ (queueOn t l).apart = _) (fun _ => ?_) (fun _ => ?_)
    · cases l <;> exact ⟨rfl, rfl⟩
    · rw [kick_link, kick_queue]
      cases l <;> exact ⟨rfl, rfl⟩
  case link1 => exact resetsTo_cases cause s h (fun t => (linkOn t .link1).outbound = none) (fun _ => rfl) (fun _ => rfl)
  case link0 =>
    refine resetsTo_cases cause s h (fun t => (linkOn t .link0).outbound = _) (fun hc => ?_) (fun hc => ?_)
    · rw [if_neg hc]
      rfl
    · rw [if_pos hc]
      rfl
  case transit =>
    have finRange : List.finRange 16 = allLines := by decide
    rw [htransit, finRange]
    rfl

end Sys2Proof.Machine
end

section
/-! SUPPORT. The statements about the position sources and the timers of a track: edges, transfers, samples, update intervals (01, 02). -/

namespace Sys2Proof.Machine

-- One proof at a time: proofs elaborated side by side would hold a thread each, and its stack.
set_option Elab.async false

section
variable (s : State) (k : TrackId)

/-! ### One track changed -/

theorem setTrack_get (t : Track) : (setTrack k t s).tracks[k] = t := getElem_set_eq ..

/-- Of two changes of one track the later one stands. -/
theorem setTrack_setTrack (t u : Track) : setTrack k u (setTrack k t s) = setTrack k u s := by simp [setTrack]

/-- A settle timer started anew in SETTLING (R8). -/
theorem startSettle_settling {t : Track} (hs : t.state = .settling) (ht : 0 < t.cfg.settleTime) :
    startSettle s t = { t with settleTimer := some (s.now + t.cfg.settleTime * 1000) } := by
  rw [startSettle, if_neg (by omega), ← hs]
  rfl

/-! ### Source errors (R8, R9) -/

/-- The effects of a source error on track unit k at `v`, by its state and the count `n` at the error limit (R8, R9). -/
theorem judgeSourceError_effects (cause : TrackCause) (v : Track) (n limit : Nat) (he : v.state ≠ .disabled) :
    let u := setTrack k v s
    let w := judgeSourceError k cause (decide (limit ≤ n)) u
    (v.state = .fault ∨ v.state = .running ∧ n < limit → w = u) ∧
    (v.state = .settling → n < limit → 0 < v.cfg.settleTime →
      w = setTrack k { v with settleTimer := some (s.now + v.cfg.settleTime * 1000) } u) ∧
    (v.state = .settling → n < limit → v.cfg.settleTime = 0 → w = settled k v u) ∧
    (v.state ≠ .fault → limit ≤ n → Faulted k cause u w) := by
  intro u w
  have track : u.tracks[k] = v := setTrack_get s k v
  have below : n < limit → w = judgeSourceError k cause false u := fun h => by
    simp only [w, decide_eq_false (Nat.not_le.2 h)]
  have settling : v.state = .settling → n < limit →
      w = if v.cfg.settleTime = 0 then finishSettle k u else setTrack k (startSettle u v) u := fun hs h => by
    rw [below h, judgeSourceError, track, hs]
    rfl
  refine ⟨?unchanged, fun hs h ht => ?restarts, fun hs h ht => ?settles, fun hf h => ?faults⟩
  case unchanged =>
    rintro (hf | ⟨hr, h⟩)
    · exact judgeSourceError_fault u k cause _ (by rw [track]; exact hf)
    · rw [below h]
      exact judgeSourceError_running u k cause (by rw [track]; exact hr)
  case restarts =>
    rw [settling hs h, if_neg (by omega), startSettle_settling u hs ht]
    rfl
  case settles =>
    rw [settling hs h, if_pos ht, finishSettle, track]
    rfl
  case faults =>
    have limited : w = enterFault k cause u := by
      simp only [w, decide_eq_true h]
      exact judgeSourceError_limit u k cause (by rw [track]; exact he) (by rw [track]; exact hf)
    rw [limited]
    exact enterFault_faulted u k cause

/-! ### Position changes (R3, R10) -/

/-- A change within the range moves track unit k at `v`, and is offered in SETTLING and RUNNING (R3, R10). -/
theorem applyChange_moves (v : Track) {d : Int} (he : v.state ≠ .disabled) (hr : inRange (v.pos + d) = true) :
    let u := setTrack k { v with pos := v.pos + d } s
    (v.state = .fault ∨ d = 0 → applyChange k d (setTrack k v s) = u) ∧
    (v.state ≠ .fault → d ≠ 0 → applyChange k d (setTrack k v s) = offered k (v.pos + d) u) := by
  intro u
  have track : (setTrack k v s).tracks[k] = v := setTrack_get s k v
  have moves : d ≠ 0 → applyChange k d (setTrack k v s) = if v.state ≠ .fault then offered k (v.pos + d) u else u := fun hd => by
    rw [applyChange_inRange _ k d hd (by rw [track]; exact hr)]
    simp only [track, setTrack_setTrack, isTracking_eq (setTrack k v s) k (by rw [track]; exact he), bne_iff_ne]
    rfl
  refine ⟨fun h => ?_, fun hf hd => by rw [moves hd, if_pos hf]⟩
  by_cases hd : d = 0
  · subst hd
    rw [applyChange, if_pos rfl]
    simp only [u, Int.add_zero]
  · rw [moves hd, if_neg (not_not_intro (h.resolve_right hd))]

/-- The range limit at which a change of `d` counts from `x` clamps (R10). -/
def beyondLimit (limit : RangeLimit) (x : Int) : Prop :=
  limit = .high ∧ 140737488355327 < x ∨ limit = .low ∧ x < -140737488355328

/-- A change beyond the range clamps track unit k at `v` to the limit; in SETTLING and RUNNING it enters FAULT (R10). -/
theorem applyChange_clamps (v : Track) {d : Int} {limit : RangeLimit} (he : v.state ≠ .disabled) (hv : inRange v.pos = true)
    (hb : beyondLimit limit (v.pos + d)) :
    let u := setTrack k { v with
      pos := if limit = .high then 140737488355327 else -140737488355328, clamp := some limit } s
    (v.state = .fault → applyChange k d (setTrack k v s) = u) ∧
    (v.state ≠ .fault → Faulted k .range u (applyChange k d (setTrack k v s))) := by
  intro u
  have track : (setTrack k v s).tracks[k] = v := setTrack_get s k v
  have within : -140737488355328 ≤ v.pos ∧ v.pos ≤ 140737488355327 := of_decide_eq_true hv
  have moved : movedTrack v d = { v with
      pos := if limit = .high then 140737488355327 else -140737488355328, clamp := some limit } := by
    rcases hb with ⟨rfl, h⟩ | ⟨rfl, h⟩
    · rw [movedTrack, if_pos (show Config.maxPos < _ from h)]
      rfl
    · have low : v.pos + d < Config.minPos := h
      rw [movedTrack, if_neg (by simp only [Config.maxPos]; omega), if_pos low]
      rfl
  have fits : inRange (v.pos + d) = false := by
    refine decide_eq_false fun h : -140737488355328 ≤ v.pos + d ∧ v.pos + d ≤ 140737488355327 => ?_
    rcases hb with ⟨-, hb⟩ | ⟨-, hb⟩ <;> omega
  have nonzero : d ≠ 0 := fun h => by
    rcases hb with ⟨-, hb⟩ | ⟨-, hb⟩ <;> omega
  have clamped : applyChange k d (setTrack k v s) = if v.state ≠ .fault then enterFault k .range u else u := by
    have tracking : isTracking u k = (v.state != .fault) := by
      have := isTracking_eq u k
      rw [setTrack_get] at this
      exact this he
    simp only [applyChange, if_neg nonzero, track, fits, moved, setTrack_setTrack]
    rw [show isTracking (setTrack k _ s) k = _ from tracking]
    simp only [bne_iff_ne, Bool.false_eq_true, if_false]
    rfl
  refine ⟨fun hf => ?_, fun hf => ?_⟩
  · rw [clamped, if_neg (not_not_intro hf)]
  · rw [clamped, if_pos hf]
    exact enterFault_faulted u k .range

end

/-! ### The quadrature source (R24 to R28) -/

/-- The up-counting entries of Table 2-2. -/
theorem quadStep_up : ∀ a b c d : Bool, (⟨a, b⟩, ⟨c, d⟩) ∈ upEdges → quadStep ⟨a, b⟩ ⟨c, d⟩ = .up := by decide

/-- The down-counting entries of Table 2-2 are the up-counting ones read backwards. -/
theorem quadStep_down : ∀ a b c d : Bool, (⟨c, d⟩, ⟨a, b⟩) ∈ upEdges → quadStep ⟨a, b⟩ ⟨c, d⟩ = .down := by decide

/-- Where both phases change the transition is illegal (Table 2-2). -/
theorem quadStep_illegal : ∀ a b c d : Bool, c ≠ a → d ≠ b → quadStep ⟨a, b⟩ ⟨c, d⟩ = .illegal := by decide

theorem sensed_eq (c : CountSense) (d : Int) : sensed c d = if c = .normal then d else -d := by cases c <;> rfl

section
variable (s : State) (k : TrackId)

/-- An edge of an enabled QUAD track is decoded from the reference, the observed pair becoming the reference (R25). -/
theorem phaseChange_decodes {r : PhasePair} (p : PhasePair) (he : s.tracks[k].state ≠ .disabled)
    (hq : s.tracks[k].cfg.source = .quad) (hr : s.tracks[k].reference = some r) :
    exec (.phaseChange k p.a p.b) s = .next (applyQuadStep k (quadStep r p)
      (setTrack k { s.tracks[k] with reference := some p } (setPhasePin k p s))) := by
  have enabled : (isEnabled (setPhasePin k p s) k && (setPhasePin k p s).tracks[k].cfg.source == .quad) = true :=
    Bool.and_eq_true_iff.2 ⟨bne_iff_ne.2 he, beq_iff_eq.2 hq⟩
  have decoded : phaseChange k p.a p.b s = decodePhase k p (setPhasePin k p s) := if_pos enabled
  have run : exec (.phaseChange k p.a p.b) s = .next (phaseChange k p.a p.b s) := rfl
  rw [run, decoded, decodePhase, show (setPhasePin k p s).tracks[k] = s.tracks[k] from rfl, hr]

/-- A legal edge is a change of one count, by Table 2-2 and the count sense (R25). -/
theorem applyQuadStep_legal {r p : PhasePair} {d : Int} (v : Track) (u : State)
    (h : (r, p) ∈ upEdges ∧ d = 1 ∨ (p, r) ∈ upEdges ∧ d = -1) :
    applyQuadStep k (quadStep r p) (setTrack k v u) =
      applyChange k (if v.cfg.sense = .normal then d else -d) (setTrack k v u) := by
  have track : (setTrack k v u).tracks[k] = v := setTrack_get u k v
  rcases h with ⟨h, rfl⟩ | ⟨h, rfl⟩
  · rw [quadStep_up r.a r.b p.a p.b h, applyQuadStep, track, sensed_eq]
  · rw [quadStep_down r.a r.b p.a p.b h, applyQuadStep, track, sensed_eq]

end

/-- Settles O6: a legal edge is a position change of one count. -/
theorem legalEdgeCountsOne : Obligations.LegalEdgeCountsOne := by
  unfold Obligations.LegalEdgeCountsOne
  intro s k r p d he hq hr hd x hx u
  have nonzero : (if s.tracks[k].cfg.sense = .normal then d else -d) ≠ 0 := by
    rcases hd with ⟨-, rfl⟩ | ⟨-, rfl⟩ <;> split <;> decide
  obtain ⟨stays, moves⟩ := applyChange_moves (setPhasePin k p s) k { s.tracks[k] with reference := some p } he hx
  rw [phaseChange_decodes s k p he hq hr, applyQuadStep_legal k _ _ hd]
  exact ⟨fun hf => congrArg _ (stays (.inl hf)), fun hf => congrArg _ (moves hf nonzero)⟩

/-- Settles O7: an illegal transition is a source error. -/
theorem illegalTransitionIsAnError : Obligations.IllegalTransitionIsAnError := by
  unfold Obligations.IllegalTransitionIsAnError
  intro s k r p he hq hr ha hb t n v u
  have error : exec (.phaseChange k p.a p.b) s =
      .next (judgeSourceError k .quad (decide (t.cfg.errorLimit ≤ n)) u) := by
    rw [phaseChange_decodes s k p he hq hr, quadStep_illegal r.a r.b p.a p.b ha hb, applyQuadStep, illegalTransition,
      setTrack_get, setTrack_setTrack]
  obtain ⟨stays, restarts, settles, faults⟩ :=
    judgeSourceError_effects (setPhasePin k p s) k .quad v n t.cfg.errorLimit he
  rw [error]
  exact ⟨fun h => congrArg _ (stays h), fun hs h ht => congrArg _ (restarts hs h ht),
    fun hs h ht => congrArg _ (settles hs h ht), fun hf h => ⟨_, rfl, faults hf h⟩⟩

/-! ### HOME captures (R15, R17) -/

section
variable (s : State) (k : TrackId)

/-- Telling the CSU, the lines and MUk of a discontinuity is all that it does outside the track unit (R15). -/
theorem tell_discontinued (x : Int) :
    Discontinued k x s (tellMark k .discontinuity
      (tellDistanceLines k (.truncate k .discontinuity) (tellCsu k (.discontinuity x) s))) := by
  rw [Discontinued, tellDistanceLines_eq]
  rfl

/-- A record raised before a discontinuity is told stands as one raised behind it (R15, R17). -/
theorem Discontinued.raiseRouted {s t : State} {k : TrackId} {x : Int} (h : Discontinued k x s t) (dest : Option LinkId)
    (r : Report) : Discontinued k x (raiseRouted dest r s) (Machine.raiseRouted dest r t) := by
  rw [Discontinued] at h
  subst h
  cases dest <;> rfl

/-- A change of a track stands beside a record raised. -/
theorem setTrack_raiseRouted (dest : Option LinkId) (r : Report) (t : Track) :
    setTrack k t (raiseRouted dest r s) = raiseRouted dest r (setTrack k t s) := by cases dest <;> rfl

/-- The effects of a PRESET to `x` in FAULT: the velocity window restarts (R15). -/
theorem presetEffects_fault (x : Int) (hf : s.tracks[k].state = .fault) :
    presetEffects k x s =
      setTrack k { s.tracks[k] with pos := x, window := some ⟨x, s.tracks[k].cfg.window⟩ } s := by
  rw [presetEffects]
  dsimp only
  split
  case h_1 h => exact absurd (hf.symm.trans h) (by decide)
  case h_2 => rfl
  case h_3 h => exact absurd hf h

/-- A record of an owner goes where the links and the default route send it (R171). -/
theorem routeOwned_congr {t : State} (hl : t.links = s.links) (hr : t.route = s.route) (owner : Option LinkId) :
    routeOwned t owner = routeOwned s owner := by
  unfold routeOwned routeUnowned isLost
  rw [hl, hr]

/-- A record of a track goes where it goes from any state with the same links, claims and default route (R171). -/
theorem raiseTrack_eq {t : State} (hl : t.links = s.links) (hr : t.route = s.route) (hc : t.claims = s.claims) (r : Report) :
    raiseTrack k r t = raiseRouted (routeOwned s (trackOwner s k)) r t := by
  have owner : trackOwner t k = trackOwner s k := by rw [trackOwner, hc, trackOwner]
  rw [raiseTrack, owner, routeOwned_congr s hl hr]

/-- The effects of a PRESET to `x` in SETTLING and RUNNING (R8, R15). -/
theorem presetEffects_tracking (x : Int) (he : s.tracks[k].state ≠ .disabled) (hf : s.tracks[k].state ≠ .fault) :
    Discontinued k x
      (setTrack k { s.tracks[k] with
        pos := x, window := some ⟨x, s.tracks[k].cfg.window⟩
        state := if s.tracks[k].cfg.settleTime = 0 then .running else .settling
        settleTimer := if s.tracks[k].cfg.settleTime = 0 then none
          else some (s.now + s.tracks[k].cfg.settleTime * 1000) } s)
      (presetEffects k x s) := by
  have told : presetEffects k x s = tellMark k .discontinuity (tellDistanceLines k (.truncate k .discontinuity)
      (tellCsu k (.discontinuity x)
        (setTrack k (startSettle s { s.tracks[k] with pos := x, window := some ⟨x, s.tracks[k].cfg.window⟩ }) s))) := by
    rw [presetEffects]
    dsimp only
    split
    case h_1 h => exact absurd h he
    case h_2 h => exact absurd h hf
    case h_3 => rfl
  have settle : startSettle s { s.tracks[k] with pos := x, window := some ⟨x, s.tracks[k].cfg.window⟩ } =
      { s.tracks[k] with
        pos := x, window := some ⟨x, s.tracks[k].cfg.window⟩
        state := if s.tracks[k].cfg.settleTime = 0 then .running else .settling
        settleTimer := if s.tracks[k].cfg.settleTime = 0 then none
          else some (s.now + s.tracks[k].cfg.settleTime * 1000) } := by
    unfold startSettle
    split <;> simp [afterMs]
  rw [told, settle]
  exact tell_discontinued _ k x

/-- A HOME capture by the state of the track (R17). -/
theorem homeCapture_effects (he : s.tracks[k].state ≠ .disabled) :
    let x := s.tracks[k].homeValue
    let v : Track := { s.tracks[k] with pos := x, homeArmed := false, window := some ⟨x, s.tracks[k].cfg.window⟩ }
    let q := routeOwned s (trackOwner s k)
    (s.tracks[k].state = .fault →
      .next (homeCapture k s) = (.next (raiseRouted q (.homed k x) (setTrack k v s)) : Host.Outcome State Fault Refusal)) ∧
    (s.tracks[k].state ≠ .fault → ∃ w, .next (homeCapture k s) = (.next w : Host.Outcome State Fault Refusal) ∧
      let y : TrackState := if s.tracks[k].cfg.settleTime = 0 then .running else .settling
      let u := raiseRouted q (.homed k x) (setTrack k { v with
        state := y, settleTimer := if s.tracks[k].cfg.settleTime = 0 then none
          else some (s.now + s.tracks[k].cfg.settleTime * 1000) } s)
      Discontinued k x (if y = s.tracks[k].state then u else raiseRouted q (.trackState k y .discontinuity) u) w) := by
  intro x v q
  generalize hs1 : raiseRouted q (.homed k x) (setTrack k { s.tracks[k] with pos := x, homeArmed := false } s) = s1
  have track : s1.tracks[k] = { s.tracks[k] with pos := x, homeArmed := false } := by
    rw [← hs1, raiseRouted_tracks]
    exact setTrack_get ..
  have before : ∀ w : Track, setTrack k w s1 = raiseRouted q (.homed k x) (setTrack k w s) := fun w => by
    rw [← hs1, setTrack_raiseRouted, setTrack_setTrack]
  have capture : homeCapture k s = if (presetEffects k x s1).tracks[k].state = s.tracks[k].state then presetEffects k x s1
      else raiseTrack k (.trackState k (presetEffects k x s1).tracks[k].state .discontinuity) (presetEffects k x s1) := by
    rw [← hs1]
    rfl
  refine ⟨fun hf => ?fault, fun hf => ⟨_, rfl, ?tracking⟩⟩
  case fault =>
    have preset : presetEffects k x s1 = setTrack k v s1 := by
      rw [presetEffects_fault s1 k x (by rw [track]; exact hf), track]
    rw [capture, preset, setTrack_get, if_pos rfl, before]
  case tracking =>
    intro y u
    have told : Discontinued k x u (presetEffects k x s1) := by
      have told := presetEffects_tracking s1 k x (by rw [track]; exact he) (by rw [track]; exact hf)
      have now : s1.now = s.now := by rw [← hs1, raiseRouted_now, setTrack_now]
      simp only [track, before, now] at told
      exact told
    generalize presetEffects k x s1 = p at capture told
    have same : p.tracks = u.tracks ∧ p.links = u.links ∧ p.route = u.route ∧ p.claims = u.claims := by
      rw [Discontinued] at told
      subst told
      exact ⟨rfl, rfl, rfl, rfl⟩
    obtain ⟨ht, hl, hr, hc⟩ := same
    have state : p.tracks[k].state = y := by rw [ht, raiseRouted_tracks, setTrack_get]
    have raised : raiseTrack k (.trackState k y .discontinuity) p = raiseRouted q (.trackState k y .discontinuity) p :=
      raiseTrack_eq s k (by rw [hl, raiseRouted_links, setTrack_links]) (by rw [hr, raiseRouted_route, setTrack_route])
        (by rw [hc, raiseRouted_claims, setTrack_claims]) _
    rw [capture, state, raised]
    split
    · exact told
    · exact told.raiseRouted q _

end

/-- Settles O8: only an enabled QUAD track sees its pins; an index edge with home armed is a HOME capture. -/
theorem indexEdgeCapturesHome : Obligations.IndexEdgeCapturesHome := by
  unfold Obligations.IndexEdgeCapturesHome
  refine ⟨fun s k a b h => ?unseen, fun s k he hq => ⟨fun ha => ?unarmed, fun ha => ?armed⟩⟩
  case unseen =>
    have unseen : (isEnabled s k && s.tracks[k].cfg.source == .quad) = false := by
      rcases h with h | h
      · simp only [isEnabled, h]
        rfl
      · rw [beq_eq_false_iff_ne.2 h, Bool.and_false]
    have phase : phaseChange k a b s = setPhasePin k ⟨a, b⟩ s := if_neg (by rw [Bool.not_eq_true]; exact unseen)
    have index : indexEdge k s = s := if_neg (by rw [unseen]; exact Bool.false_ne_true)
    exact ⟨congrArg Host.Outcome.next phase, congrArg Host.Outcome.next index⟩
  case unarmed =>
    have index : indexEdge k s = s := if_neg (by rw [ha, Bool.and_false]; decide)
    exact congrArg Host.Outcome.next index
  case armed =>
    have capture : exec (.indexEdge k) s = .next (homeCapture k s) := by
      have seen : (isEnabled s k && s.tracks[k].cfg.source == .quad && s.tracks[k].homeArmed) = true := by
        rw [ha, Bool.and_true]
        exact Bool.and_eq_true_iff.2 ⟨bne_iff_ne.2 he, beq_iff_eq.2 hq⟩
      exact congrArg Host.Outcome.next (if_pos seen)
    rw [capture]
    exact homeCapture_effects s k he

/-! ### Transfers and samples (R29 to R33) -/

section
variable (s : State) (k : TrackId)

/-- A transfer in progress that fails its framing ends as a rejected sample (R29, R30). -/
theorem transferCompletion_fails {start : Bool} {raw : BitVec 32} {parity stop : Bool} {reason : Rejection}
    (ht : s.tracks[k].transfer = true) (hj : judgeFraming s.tracks[k].cfg.sampleWidth start raw parity stop = some reason) :
    exec (.transferCompletion k start raw parity stop) s =
      .next (rejectSample k reason (setTrack k { s.tracks[k] with transfer := false } s)) := by
  have run : exec (.transferCompletion k start raw parity stop) s = .next (transferCompletion k start raw parity stop s) := rfl
  rw [run, transferCompletion, if_pos ht]
  simp only [setTrack_get, hj]

/-- A transfer in progress that passes its framing is a sample of its low W bits (R29, R30). -/
theorem transferCompletion_passes {start : Bool} {raw : BitVec 32} {parity stop : Bool}
    (ht : s.tracks[k].transfer = true) (hj : judgeFraming s.tracks[k].cfg.sampleWidth start raw parity stop = none) :
    exec (.transferCompletion k start raw parity stop) s =
      .next (takeSample k (raw.toNat % 2 ^ s.tracks[k].cfg.sampleWidth) (setTrack k { s.tracks[k] with transfer := false } s)) := by
  have run : exec (.transferCompletion k start raw parity stop) s = .next (transferCompletion k start raw parity stop s) := rfl
  rw [run, transferCompletion, if_pos ht]
  simp only [setTrack_get, hj, rawValue]

/-- A rejected sample is a source error of the track unit with its counts advanced (R9, R30, R32). -/
theorem rejectSample_setTrack (v : Track) (reason : Rejection) :
    rejectSample k reason (setTrack k v s) =
      judgeSourceError k .sample (decide (v.cfg.errorLimit ≤ countUp v.rejects)) (setTrack k (rejectedTrack v reason) s) := by
  rw [rejectSample, setTrack_get, setTrack_setTrack]
  rfl

theorem toNat_eq_ite (b : Bool) : b.toNat = if b = true then 1 else 0 := by cases b <;> rfl

/-- A transfer whose bits pass the checks of R30. -/
theorem judgeFraming_valid {w : Nat} {raw : BitVec 32} {parity : Bool}
    (h : (onesBelow w raw.toNat + (if parity then 1 else 0)) % 2 = 0) : judgeFraming w true raw parity false = none := by
  rw [judgeFraming, if_neg (by decide), if_neg (by decide), toNat_eq_ite, if_neg (by omega)]

/-- The delta of R32 is the one of its residue on the circle that lies within half a turn. -/
theorem unwrapDelta_eq {w prev r : Nat} {d : Int} (hw : 1 ≤ w) (hlo : -(2 ^ (w - 1) : Int) ≤ d) (hhi : d < 2 ^ (w - 1))
    (hd : (d - ((r : Int) - prev)) % 2 ^ w = 0) : unwrapDelta w prev r = d := by
  have turn : (2 ^ w : Int) = 2 * 2 ^ (w - 1) := by rw [← pow_succ', Nat.sub_add_cancel hw]
  have residue : ((r : Int) - prev) % 2 ^ w = d % 2 ^ w := (Int.emod_eq_emod_iff_emod_sub_eq_zero.2 hd).symm
  simp only [unwrapDelta, Nat.cast_pow, Nat.cast_ofNat, residue]
  generalize (2 ^ w : Int) = turns at *
  generalize (2 ^ (w - 1) : Int) = half at *
  by_cases hn : 0 ≤ d
  · rw [Int.emod_eq_of_lt hn (by omega), if_pos hhi]
  · have wrapped : d % turns = d + turns := by
      rw [← Int.add_emod_right, Int.emod_eq_of_lt (by omega) (by omega)]
    rw [wrapped, if_neg (by omega), Int.add_sub_cancel]

/-- A framing-valid sample that has a predecessor (R32, R33). -/
theorem takeSample_setTrack {v : Track} {prev r : Nat} {d : Int} (hp : v.rPrev = some prev)
    (hd : unwrapDelta v.cfg.sampleWidth prev r = d) :
    takeSample k r (setTrack k v s) =
      if v.state ≠ .fault ∧ v.cfg.jumpLimit < d.natAbs then rejectSample k .jump (setTrack k v s)
      else applyChange k (if v.cfg.sense = .normal then d else -d) (setTrack k (acceptedTrack v r) s) := by
  rw [takeSample, setTrack_get]
  simp only [hp, hd, setTrack_setTrack, sensed_eq]

end

/-- Settles O9: a transfer that fails framing is a source error. -/
theorem badFramingIsRejected : Obligations.BadFramingIsRejected := by
  unfold Obligations.BadFramingIsRejected
  intro s k start parity stop raw reason ht he hb t n v u i
  have judged : judgeFraming t.cfg.sampleWidth start raw parity stop = some reason ∧ reason ≠ .jump := by
    rcases hb with ⟨rfl, rfl⟩ | ⟨rfl, rfl, rfl⟩ | ⟨rfl, rfl, rfl, hodd⟩
    · exact ⟨rfl, by decide⟩
    · exact ⟨rfl, by decide⟩
    · refine ⟨?_, by decide⟩
      rw [judgeFraming, if_neg (by decide), if_neg (by decide), toNat_eq_ite, if_pos hodd]
  obtain ⟨failed, notJump⟩ := judged
  have rejected : rejectedTrack { t with transfer := false } reason = v := by
    cases reason with
    | noStart | badStop | parity => rfl
    | jump => exact absurd rfl notJump
  have error : exec i s = .next (judgeSourceError k .sample (decide (t.cfg.errorLimit ≤ n)) u) := by
    rw [transferCompletion_fails s k ht failed, rejectSample_setTrack, rejected]
  obtain ⟨stays, restarts, settles, faults⟩ := judgeSourceError_effects s k .sample v n t.cfg.errorLimit he
  rw [error]
  exact ⟨fun h => congrArg _ (stays h), fun hs h hz => congrArg _ (restarts hs h hz),
    fun hs h hz => congrArg _ (settles hs h hz), fun hf h => ⟨_, rfl, faults hf h⟩⟩

/-! ### What a sample leaves of the transfer (R24, R29) -/

section
variable (s : State) (k : TrackId)

/-- The configuration and the transfer of track k are the same in both states; they decide TAk (R24). -/
def SameClock (k : TrackId) (s t : State) : Prop :=
  t.tracks[k].cfg = s.tracks[k].cfg ∧ t.tracks[k].transfer = s.tracks[k].transfer

theorem setTrack_sameClock (v w : Track) (hc : w.cfg = v.cfg) (ht : w.transfer = v.transfer) :
    SameClock k (setTrack k v s) (setTrack k w s) := by
  simp only [SameClock, setTrack_get]
  exact ⟨hc, ht⟩

theorem enterFault_sameClock (cause : TrackCause) : SameClock k s (enterFault k cause s) := by
  have tracks : (enterFault k cause s).tracks = s.tracks.set k (faultedTrack s.tracks[k] cause) := by
    have := enterFault_faulted s k cause
    rw [Faulted] at this
    rw [this]
    exact raiseRouted_tracks ..
  rw [SameClock, tracks, getElem_set_eq]
  exact ⟨rfl, rfl⟩

theorem applyChange_sameClock (d : Int) : SameClock k s (applyChange k d s) := by
  have moved : SameClock k s (setTrack k (movedTrack s.tracks[k] d) s) := by
    rw [SameClock, setTrack_get]
    unfold movedTrack
    split
    · exact ⟨rfl, rfl⟩
    · split <;> exact ⟨rfl, rfl⟩
  unfold applyChange
  split
  · exact ⟨rfl, rfl⟩
  · dsimp only
    split
    · split
      · rw [offerChange_eq]
        exact moved
      · exact ⟨(enterFault_sameClock _ k _).1.trans moved.1, (enterFault_sameClock _ k _).2.trans moved.2⟩
    · exact moved

theorem startSettle_clock (t : Track) : (startSettle s t).cfg = t.cfg ∧ (startSettle s t).transfer = t.transfer := by
  unfold startSettle
  split <;> exact ⟨rfl, rfl⟩

theorem finishSettle_sameClock : SameClock k s (finishSettle k s) := by
  rw [SameClock, finishSettle, raiseTrack, raiseRouted_tracks, setTrack_get]
  exact ⟨rfl, rfl⟩

theorem judgeSourceError_sameClock (cause : TrackCause) (reached : Bool) : SameClock k s (judgeSourceError k cause reached s) := by
  have anew : SameClock k s (setTrack k (startSettle s s.tracks[k]) s) := by
    rw [SameClock, setTrack_get]
    exact startSettle_clock s _
  unfold judgeSourceError
  split
  · exact ⟨rfl, rfl⟩
  · exact ⟨rfl, rfl⟩
  · split
    · exact enterFault_sameClock s k cause
    · exact ⟨rfl, rfl⟩
  · split
    · exact enterFault_sameClock s k cause
    · split
      · exact finishSettle_sameClock s k
      · exact anew

/-- A framing-valid sample leaves the transfer ended (R29). -/
theorem takeSample_sameClock (v : Track) (r : Nat) : SameClock k (setTrack k v s) (takeSample k r (setTrack k v s)) := by
  have accepted : SameClock k (setTrack k v s) (setTrack k (acceptedTrack v r) s) := setTrack_sameClock s k v _ rfl rfl
  cases hp : v.rPrev with
  | none =>
    rw [takeSample, setTrack_get]
    simp only [hp, setTrack_setTrack]
    exact accepted
  | some prev =>
    rw [takeSample_setTrack s k hp rfl]
    split
    · have rejected : SameClock k (setTrack k v s) (setTrack k (rejectedTrack v .jump) s) := setTrack_sameClock s k v _ rfl rfl
      rw [rejectSample_setTrack]
      exact ⟨(judgeSourceError_sameClock _ k _ _).1.trans rejected.1, (judgeSourceError_sameClock _ k _ _).2.trans rejected.2⟩
    · exact ⟨(applyChange_sameClock _ k _).1.trans accepted.1, (applyChange_sameClock _ k _).2.trans accepted.2⟩

end

/-- Settles O10: a framing-valid sample is acquired, rejected as a source error, or a position change by its delta. -/
theorem validSampleIsUnwrapped : Obligations.ValidSampleIsUnwrapped := by
  unfold Obligations.ValidSampleIsUnwrapped
  intro s k parity raw ht he hw hp t w r v i
  have taken : exec i s = .next (takeSample k r (setTrack k { t with transfer := false } s)) := by
    rw [transferCompletion_passes s k ht (judgeFraming_valid hp)]
  rw [taken]
  refine ⟨fun hn => ?acquired, fun y hs hy => ?clock, fun prev d hprev hlo hhi hd => ?unwrapped⟩
  case acquired =>
    rw [takeSample, setTrack_get]
    simp only [setTrack_setTrack, hn]
    rfl
  case clock =>
    obtain ⟨hcfg, htransfer⟩ := takeSample_sameClock s k { t with transfer := false } r
    rw [Host.Outcome.next.inj hy, setTrack_get] at hcfg htransfer
    have sampled : y.tracks[k].cfg.source = .sampled := by rw [hcfg]; exact hs
    rw [taPin, taDriven, sampled, htransfer]
    rfl
  case unwrapped =>
    intro x n j u
    have sample := takeSample_setTrack s k (v := { t with transfer := false }) hprev (unwrapDelta_eq hw hlo hhi hd)
    obtain ⟨stays, restarts, settles, faults⟩ := judgeSourceError_effects s k .sample j n t.cfg.errorLimit he
    refine ⟨fun hj => ?jump, fun hx hf => ?fault, fun hx hf hj hd0 => ?moved, fun hf hd0 => ?still⟩
    case jump =>
      have error : t.state ≠ .fault → takeSample k r (setTrack k { t with transfer := false } s) =
          judgeSourceError k .sample (decide (t.cfg.errorLimit ≤ n)) u := fun hf => by
        rw [sample, if_pos ⟨hf, hj⟩, rejectSample_setTrack]
        rfl
      have notFault : ∀ y : TrackState, y ≠ .fault → t.state = y → t.state ≠ .fault := fun y hy e => by rw [e]; exact hy
      refine ⟨fun hs h => ?_, fun hs h hz => ?_, fun hs h hz => ?_, fun hf h => ⟨_, rfl, ?_⟩⟩
      · rw [error (notFault _ (by decide) hs), stays (.inr ⟨hs, h⟩)]
      · rw [error (notFault _ (by decide) hs), restarts hs h hz]
      · rw [error (notFault _ (by decide) hs), settles hs h hz]
      · rw [error hf]
        exact faults hf h
    case fault =>
      rw [sample, if_neg fun h => h.1 hf]
      exact congrArg _ ((applyChange_moves s k v he hx).1 (.inl hf))
    case moved =>
      have counts : (if t.cfg.sense = .normal then d else -d) ≠ 0 := by split <;> omega
      rw [sample, if_neg fun h => Nat.not_lt.2 hj h.2]
      exact congrArg _ ((applyChange_moves s k v he hx).2 hf counts)
    case still =>
      have counts : (if t.cfg.sense = .normal then d else -d) = 0 := by split <;> omega
      rw [sample, if_neg fun h => by rw [hd0] at h; exact Nat.not_lt_zero _ h.2, counts, applyChange, if_pos rfl]
      rfl

/-! ### The simulation source and the range limits (R10, R34) -/

/-- An update interval is a position change of the whole counts of the sum, the rest being kept (R34). -/
theorem updateIntervalExpiry_eq (s : State) (k : TrackId) {n r : Int} (ht : s.tracks[k].updateTimer.isSome = true)
    (hsum : s.tracks[k].remainder + s.tracks[k].simVel = n * 100000 + r) (hlo : -100000 < r) (hhi : r < 100000)
    (hpos : 0 < n → 0 ≤ r) (hneg : n < 0 → r ≤ 0) :
    exec (.updateIntervalExpiry k) s = .next (applyChange k n
      (setTrack k { s.tracks[k] with remainder := r, updateTimer := some (s.now + 10) } s)) := by
  obtain ⟨timer, htimer⟩ := Option.isSome_iff_exists.1 ht
  have whole : (s.tracks[k].remainder + s.tracks[k].simVel).tdiv 100000 = n :=
    tdiv_eq_of_toward_zero (by decide) (by omega)
  have rest : s.tracks[k].remainder + s.tracks[k].simVel - n * 100000 = r := by omega
  have run : exec (.updateIntervalExpiry k) s = .next (updateIntervalExpiry k s) := rfl
  rw [run, updateIntervalExpiry, htimer]
  simp only [whole, rest]
  rfl

/-- Settles O11: an update interval is a position change of the whole counts. -/
theorem simulationDeliversWholeCounts : Obligations.SimulationDeliversWholeCounts := by
  unfold Obligations.SimulationDeliversWholeCounts
  intro s k n r ht he hsum hlo hhi hpos hneg hx x u
  obtain ⟨stays, moves⟩ :=
    applyChange_moves s k { s.tracks[k] with remainder := r, updateTimer := some (s.now + 10) } he hx
  rw [updateIntervalExpiry_eq s k ht hsum hlo hhi hpos hneg]
  exact ⟨fun h => congrArg _ (stays h.symm), fun hn hf => congrArg _ (moves hf hn)⟩

/-- Settles O12: each of the three sources makes a position change, which clamps at the limit. -/
theorem clampAtTheRangeLimit : Obligations.ClampAtTheRangeLimit := by
  unfold Obligations.ClampAtTheRangeLimit
  intro s k limit he hr t x beyond sensed clamps
  have clamped : ∀ (u : State) (v : Track) (d : Int), v.state = t.state → v.pos = t.pos → beyond d →
      ∀ i : Instr, exec i s = .next (applyChange k d (setTrack k v u)) → clamps i v u := fun u v d hs hp hb i hi => by
    obtain ⟨stays, faults⟩ := applyChange_clamps u k v (limit := limit) (by rw [hs]; exact he) (by rw [hp]; exact hr)
      (by rw [hp]; exact hb)
    exact ⟨fun hf => hi.trans (congrArg _ (stays (hs.trans hf))), fun hf => ⟨_, hi, faults (by rw [hs]; exact hf)⟩⟩
  refine ⟨fun n r ht hsum hlo hhi hpos hneg hb => ?sim, fun r p d hq href hd hb => ?quad,
    fun parity raw prev d ht hw hp hprev => ?sampled⟩
  case sim =>
    exact clamped s { t with remainder := r, updateTimer := some (s.now + 10) } n rfl rfl hb _
      (updateIntervalExpiry_eq s k ht hsum hlo hhi hpos hneg)
  case quad =>
    refine clamped (setPhasePin k p s) { t with reference := some p } (sensed d) rfl rfl hb _ ?_
    rw [phaseChange_decodes s k p he hq href, applyQuadStep_legal k _ _ hd]
  case sampled =>
    intro w r hlo hhi hd hj hb
    refine clamped s { t with transfer := false, rPrev := some r, rejects := 0, framingValid := true } (sensed d) rfl rfl hb _ ?_
    rw [transferCompletion_passes s k ht (judgeFraming_valid hp),
      takeSample_setTrack s k (v := { t with transfer := false }) hprev (unwrapDelta_eq hw hlo hhi hd),
      if_neg fun h => Nat.not_lt.2 (hj h.1) h.2]
    rfl

/-! ### The timers of a track (R8, R24, R29) -/

/-- Settles O13: the sample timer starts a transfer, which takes TAk low; the settle timer ends SETTLING. -/
theorem timersOfATrackExpire : Obligations.TimersOfATrackExpire := by
  unfold Obligations.TimersOfATrackExpire
  intro s k
  have sample : s.tracks[k].sampleTimer.isSome = true → exec (.sampleTimerExpiry k) s = .next (setTrack k { s.tracks[k] with
      transfer := true, sampleTimer := some (s.now + s.tracks[k].cfg.samplePeriod) } s) := fun h => by
    obtain ⟨timer, htimer⟩ := Option.isSome_iff_exists.1 h
    have run : exec (.sampleTimerExpiry k) s = .next (sampleTimerExpiry k s) := rfl
    rw [run, sampleTimerExpiry, htimer]
    rfl
  refine ⟨sample, fun t h hs ht => ?falls, fun hd hsound => ?rests, fun hs => ?settles⟩
  case falls =>
    rw [← Host.Outcome.next.inj ((sample h).symm.trans ht), taPin, taDriven, setTrack_get]
    simp only [hs]
    rfl
  case rests =>
    obtain ⟨-, -, hsample, htransfer, -⟩ := (trackSound_iff _).1 hsound
    have idle : s.tracks[k].transfer = false :=
      Bool.eq_false_iff.2 fun h => (hsample.1 (htransfer h)).1 hd
    rw [taPin, taDriven, idle]
    simp only [beq_iff_eq, Bool.not_false]
  case settles =>
    have run : exec (.settleExpiry k) s = .next (settleExpiry k s) := rfl
    rw [run, settleExpiry, if_pos hs]
    rfl

end Sys2Proof.Machine
end

section
/-! SUPPORT. The operands of every host command: what each parser accepts is what the argument bytes spell, field by field,
  and what it
refuses (R184 to R187, Table 11-3). -/

namespace Sys2Proof.Machine

-- One proof at a time: proofs elaborated side by side would hold a thread each, and its stack.
set_option Elab.async false

/-! ### Fields (R184) -/

theorem unLe_lt : ∀ bs : List Byte, unLe bs < 256 ^ bs.length
  | [] => by simp [unLe]
  | b :: bs => by
    have hb := b.isLt
    have ih := unLe_lt bs
    have power : 256 ^ (b :: bs).length = 256 * 256 ^ bs.length := by rw [List.length_cons, pow_succ']
    rw [power, unLe]
    omega

/-- The bytes of a field are those of its value (R184). -/
theorem le_unLe : ∀ bs : List Byte, le bs.length (unLe bs) = bs
  | [] => rfl
  | b :: bs => by
    have hb := b.isLt
    have low : BitVec.ofNat 8 (b.toNat + 256 * unLe bs) = b :=
      BitVec.eq_of_toNat_eq (by rw [BitVec.toNat_ofNat]; omega)
    have rest : (b.toNat + 256 * unLe bs) / 256 = unLe bs := by omega
    rw [List.length_cons, unLe, le, low, rest, le_unLe bs]

section
variable {p : List Byte} {i n v : Nat} {b : Byte} {rest : List Byte}

/-- A list that begins with `x` is `x` and what stands behind it. -/
theorem drop_eq_append {x : List Byte} (hx : x.length = n) :
    p.drop i = x ++ rest ↔ (p.drop i).take n = x ∧ p.drop (i + n) = rest := by
  rw [← List.drop_drop]
  constructor
  · intro h
    rw [h, ← hx]
    exact ⟨List.take_left, List.drop_left⟩
  · rintro ⟨rfl, rfl⟩
    exact (List.take_append_drop n _).symm

/-- A field of `n` bytes behind `i` bytes is the value that is read there (R184). -/
theorem drop_eq_le (hn : 0 < n) (hv : v < 256 ^ n) :
    p.drop i = le n v ++ rest ↔ i + n ≤ p.length ∧ fieldAt p i n = v ∧ p.drop (i + n) = rest := by
  have size : ((p.drop i).take n).length = min n (p.length - i) := by simp
  rw [drop_eq_append (length_le n v)]
  constructor
  · rintro ⟨h, hr⟩
    rw [h, length_le] at size
    refine ⟨by omega, ?_, hr⟩
    rw [fieldAt, h, unLe_le, Nat.mod_eq_of_lt hv]
  · rintro ⟨hi, rfl, hr⟩
    refine ⟨?_, hr⟩
    have bytes := le_unLe ((p.drop i).take n)
    rw [size, Nat.min_eq_left (by omega)] at bytes
    exact bytes.symm

/-- A byte behind `i` bytes is the value that is read there. -/
theorem drop_eq_cons :
    p.drop i = b :: rest ↔ i + 1 ≤ p.length ∧ fieldAt p i 1 = b.toNat ∧ p.drop (i + 1) = rest := by
  have byte : b :: rest = le 1 b.toNat ++ rest := by simp [le]
  rw [byte, drop_eq_le Nat.one_pos (by simpa using b.isLt)]

/-- The last field of a payload. -/
theorem drop_eq_le_last (hn : 0 < n) (hv : v < 256 ^ n) : p.drop i = le n v ↔ p.length = i + n ∧ fieldAt p i n = v := by
  have last := drop_eq_le (p := p) (i := i) (rest := []) hn hv
  rw [List.append_nil, List.drop_eq_nil_iff] at last
  rw [last]
  omega

/-- The last byte of a payload. -/
theorem drop_eq_singleton : p.drop i = [b] ↔ p.length = i + 1 ∧ fieldAt p i 1 = b.toNat := by
  rw [drop_eq_cons, List.drop_eq_nil_iff]
  omega

theorem fieldAt_lt (p : List Byte) (i n : Nat) : fieldAt p i n < 256 ^ n := by
  have size : ((p.drop i).take n).length ≤ n := List.length_take_le n _
  exact (unLe_lt _).trans_le (Nat.pow_le_pow_right (by decide) size)

end

/-! ### Signed fields -/

theorem pow_256 (n : Nat) : 256 ^ n = 2 ^ (8 * n) := by
  rw [pow_mul]
  norm_num

/-- A two's complement field is the value that is read there (R184). -/
theorem toSigned_eq_iff {n u : Nat} {v : Int} (hn : 0 < n) (hu : u < 256 ^ n) (hlo : -(2 ^ (8 * n - 1) : Int) ≤ v)
    (hhi : v < 2 ^ (8 * n - 1)) : toSigned n u = v ↔ u = (v % (2 ^ (8 * n) : Nat)).toNat := by
  have turn : 2 ^ (8 * n) = 2 * 2 ^ (8 * n - 1) := by rw [← pow_succ', Nat.sub_add_cancel (by omega)]
  have bytes : 256 ^ n = 2 ^ (8 * n) := pow_256 n
  have half : ((2 ^ (8 * n - 1) : Nat) : Int) = 2 ^ (8 * n - 1) := by push_cast; rfl
  rw [bytes, turn] at hu
  rw [← half] at hlo hhi
  rw [toSigned, turn]
  generalize (2 ^ (8 * n - 1) : Nat) = m at *
  by_cases hv : 0 ≤ v
  · rw [Int.emod_eq_of_lt hv (by omega)]
    split <;> omega
  · have wrapped : v % (2 * m : Nat) = v + (2 * m : Nat) := by
      rw [← Int.add_emod_right, Int.emod_eq_of_lt (by omega) (by omega)]
    rw [wrapped]
    split <;> omega

/-- A signed field behind `i` bytes is the value that is read there (R184). -/
theorem drop_eq_leInt {p rest : List Byte} {i n : Nat} {v : Int} (hn : 0 < n) (hlo : -(2 ^ (8 * n - 1) : Int) ≤ v)
    (hhi : v < 2 ^ (8 * n - 1)) :
    p.drop i = leInt n v ++ rest ↔ i + n ≤ p.length ∧ signedAt p i n = v ∧ p.drop (i + n) = rest := by
  have residue : (v % (2 ^ (8 * n) : Nat)).toNat < 256 ^ n := by
    have bytes : 256 ^ n = 2 ^ (8 * n) := pow_256 n
    have := Int.emod_lt_of_pos v (b := (2 ^ (8 * n) : Nat)) (by positivity)
    have := Int.emod_nonneg v (b := (2 ^ (8 * n) : Nat)) (by positivity)
    rw [bytes]
    omega
  rw [leInt, drop_eq_le hn residue, signedAt, toSigned_eq_iff hn (fieldAt_lt p i n) hlo hhi]

/-- A signed field lies in the range of its size (R184). -/
theorem signedAt_range (p : List Byte) (i : Nat) {n : Nat} (hn : 0 < n) :
    -(2 ^ (8 * n - 1) : Int) ≤ signedAt p i n ∧ signedAt p i n < 2 ^ (8 * n - 1) := by
  have turn : 2 ^ (8 * n) = 2 * 2 ^ (8 * n - 1) := by rw [← pow_succ', Nat.sub_add_cancel (by omega)]
  have bytes : 256 ^ n = 2 ^ (8 * n) := pow_256 n
  have half : ((2 ^ (8 * n - 1) : Nat) : Int) = 2 ^ (8 * n - 1) := by push_cast; rfl
  have hu := fieldAt_lt p i n
  rw [bytes, turn] at hu
  rw [← half, signedAt, toSigned, turn]
  split <;> omega

theorem inRange_iff {x : Int} : inRange x = true ↔ -140737488355328 ≤ x ∧ x ≤ 140737488355327 := decide_eq_true_iff

/-- A field of a position (R184). -/
theorem drop_eq_leInt6 {p rest : List Byte} {i : Nat} {v : Int} (h : -140737488355328 ≤ v ∧ v ≤ 140737488355327) :
    p.drop i = leInt 6 v ++ rest ↔ i + 6 ≤ p.length ∧ signedAt p i 6 = v ∧ p.drop (i + 6) = rest :=
  drop_eq_leInt (by decide) (by omega) (by omega)

theorem drop_eq_leInt6_last {p : List Byte} {i : Nat} {v : Int} (h : -140737488355328 ≤ v ∧ v ≤ 140737488355327) :
    p.drop i = leInt 6 v ↔ p.length = i + 6 ∧ signedAt p i 6 = v := by
  have last := drop_eq_leInt6 (p := p) (i := i) (rest := []) h
  rw [List.append_nil, List.drop_eq_nil_iff] at last
  rw [last]
  omega

/-- A field of a signed 32-bit value (R184). -/
theorem drop_eq_leInt4 {p rest : List Byte} {i : Nat} {v : Int} (h : -2147483648 ≤ v ∧ v ≤ 2147483647) :
    p.drop i = leInt 4 v ++ rest ↔ i + 4 ≤ p.length ∧ signedAt p i 4 = v ∧ p.drop (i + 4) = rest :=
  drop_eq_leInt (by decide) (by omega) (by omega)

theorem drop_eq_leInt4_last {p : List Byte} {i : Nat} {v : Int} (h : -2147483648 ≤ v ∧ v ≤ 2147483647) :
    p.drop i = leInt 4 v ↔ p.length = i + 4 ∧ signedAt p i 4 = v := by
  have last := drop_eq_leInt4 (p := p) (i := i) (rest := []) h
  rw [List.append_nil, List.drop_eq_nil_iff] at last
  rw [last]
  omega

theorem signedAt6_range (p : List Byte) (i : Nat) :
    -140737488355328 ≤ signedAt p i 6 ∧ signedAt p i 6 ≤ 140737488355327 := by
  have := signedAt_range p i (n := 6) (by decide)
  omega

/-! ### Codes (Table 11-2) -/

section
variable {v : Nat}

@[simp] theorem sourceOf_iff {x : Source} : sourceOf v = some x ↔ v = x.code.toNat := by
  unfold sourceOf; split <;> cases x <;> simp_all [Source.code]

@[simp] theorem travelOf_iff {x : Travel} : travelOf v = some x ↔ v = (if x = .forward then 0 else 1 : Byte).toNat := by
  unfold travelOf; split <;> cases x <;> simp_all

@[simp] theorem senseOf_iff {x : CountSense} : senseOf v = some x ↔ v = (if x = .normal then 0 else 1 : Byte).toNat := by
  unfold senseOf; split <;> cases x <;> simp_all

@[simp] theorem notifyOf_iff {x : Notify} : notifyOf v = some x ↔ v = x.code.toNat := by
  unfold notifyOf; split <;> cases x <;> simp_all [Notify.code]

@[simp] theorem markEdgeOf_iff {x : MarkEdge} : markEdgeOf v = some x ↔ v = (markEdgeCode x).toNat := by
  unfold markEdgeOf; split <;> cases x <;> simp_all [markEdgeCode]

@[simp] theorem policyOf_iff {x : Policy} : policyOf v = some x ↔ v = x.code.toNat := by
  unfold policyOf; split <;> cases x <;> simp_all [Policy.code]

@[simp] theorem polarityOf_iff {x : Polarity} : polarityOf v = some x ↔ v = x.code.toNat := by
  unfold polarityOf; split <;> cases x <;> simp_all [Polarity.code]

@[simp] theorem pulseModeOf_iff {x : PulseMode} : pulseModeOf v = some x ↔ v = x.code.toNat := by
  unfold pulseModeOf; split <;> cases x <;> simp_all [PulseMode.code]

@[simp] theorem linkOf_iff {x : LinkId} : linkOf v = some x ↔ v = (linkCode x).toNat := by
  unfold linkOf; split <;> cases x <;> simp_all [linkCode]

@[simp] theorem lossPolicyOf_iff {x : LossPolicy} : lossPolicyOf v = some x ↔ v = x.code.toNat := by
  unfold lossPolicyOf; split <;> cases x <;> simp_all [LossPolicy.code]

@[simp] theorem baudOf_iff {x : BaudRate} : baudOf v = some x ↔ v = x.code.toNat := by
  unfold baudOf; split <;> cases x <;> simp_all [BaudRate.code]

@[simp] theorem yesNoOf_iff {x : Bool} : yesNoOf v = some x ↔ v = (if x = true then 1 else 0 : Byte).toNat := by
  unfold yesNoOf; split <;> cases x <;> simp_all

theorem indexByte_toNat {n : Nat} (i : Fin n) (hn : n ≤ 256) : (indexByte i).toNat = i.val := by
  rw [indexByte, BitVec.toNat_ofNat, Nat.mod_eq_of_lt (by omega)]

@[simp] theorem indexOf_iff {n : Nat} (hn : n ≤ 256) {i : Fin n} : indexOf n v = some i ↔ v = (indexByte i).toNat := by
  rw [indexByte_toNat i hn, indexOf]
  split <;> simp [Fin.ext_iff]
  omega

@[simp] theorem within_iff {lo hi w : Nat} : within lo hi v = some w ↔ (lo ≤ w ∧ w ≤ hi) ∧ v = w := by
  unfold within
  split <;> simp <;> omega

@[simp] theorem withinInt_iff {lo hi v w : Int} : withinInt lo hi v = some w ↔ (lo ≤ w ∧ w ≤ hi) ∧ v = w := by
  unfold withinInt
  split <;> simp <;> omega

/-- A fault kind set is the byte of its three bits (R184). -/
@[simp] theorem faultSetOf_iff {f : FaultSet} : faultSetOf v = some f ↔ v = f.code.toNat := by
  have table : ∀ x : Fin 8, ∀ a b c : Bool, (x.val.testBit 0 = a ∧ x.val.testBit 1 = b ∧ x.val.testBit 2 = c) ↔
      x.val = (FaultSet.code ⟨a, b, c⟩).toNat := by decide
  have bound : ∀ a b c : Bool, (FaultSet.code ⟨a, b, c⟩).toNat < 8 := by decide
  obtain ⟨a, b, c⟩ := f
  have := bound a b c
  unfold faultSetOf
  split
  case isTrue h => simpa [FaultSet.mk.injEq] using table ⟨v, h⟩ a b c
  case isFalse h => simp; omega

/-- A byte whose value fits one is the byte of that value. -/
theorem ofNat_toNat_of_lt (h : v < 256) : (BitVec.ofNat 8 v).toNat = v := by
  rw [BitVec.toNat_ofNat, Nat.mod_eq_of_lt h]

end

/-! ### Lengths and values (R186) -/

section
variable {α : Type} {b : Bool} {o : Option α}

@[simp] theorem judged_ok_iff {x : α} : judged b o = .ok x ↔ b = true ∧ o = some x := by
  unfold judged
  split <;> cases o <;> simp_all

theorem judged_badLength (h : b = false) : judged b o = .error .badLength := by rw [h]; rfl

/-- Operands of the right length that are not accepted are BAD_VALUE (R186). -/
theorem judged_badValue (h : b = true) (hx : ∀ x, judged b o ≠ .ok x) : judged b o = .error .badValue := by
  cases o with
  | none => rw [h]; rfl
  | some x => exact absurd (judged_ok_iff.2 ⟨h, rfl⟩) (hx x)

end

/-! ### The operands of each command (Table 11-3) -/

section
variable {p : List Byte}

@[simp] theorem windowOf_iff {v w : Nat} : windowOf v = some w ↔ w ∈ [1, 2, 5, 10, 20] ∧ v = w := by
  unfold windowOf
  split <;> simp <;> omega

theorem parseTrack_iff {k : TrackId} : parseTrack p = .ok k ↔ p.drop 1 = [indexByte k] := by
  simp only [parseTrack, judged_ok_iff, beq_iff_eq, indexOf_iff (show 4 ≤ 256 by decide), drop_eq_singleton]

theorem parseLine_iff {n : LineId} : parseLine p = .ok n ↔ p.drop 1 = [indexByte n] := by
  simp only [parseLine, judged_ok_iff, beq_iff_eq, indexOf_iff (show 16 ≤ 256 by decide), drop_eq_singleton]

theorem parseLink_iff {l : LinkId} : parseLink p = .ok l ↔ p.drop 1 = [linkCode l] := by
  simp only [parseLink, judged_ok_iff, beq_iff_eq, linkOf_iff, drop_eq_singleton]

theorem parseResource_iff {r : Fin 20} : parseResource p = .ok r ↔ p.drop 1 = [indexByte r] := by
  simp only [parseResource, judged_ok_iff, beq_iff_eq, indexOf_iff (show 20 ≤ 256 by decide), drop_eq_singleton]

theorem parseClaim_iff {r : Fin 20} {x : LossPolicy} : parseClaim p = .ok (r, x) ↔ p.drop 1 = [indexByte r, x.code] := by
  simp only [parseClaim, judged_ok_iff, Option.bind_eq_bind, Option.bind_eq_some_iff, Option.pure_def, Option.some.injEq,
    beq_iff_eq, existsAndEq, and_true, Prod.mk.injEq, indexOf_iff (show 20 ≤ 256 by decide), lossPolicyOf_iff, drop_eq_cons,
    List.drop_eq_nil_iff, Nat.reduceAdd]
  grind

/-- A choice of two fields, and what is made of the field read. -/
theorem ite_bind {α β : Type} {q : Prop} [Decidable q] (o o' : Option α) (f : α → Option β) :
    (if q then o.bind f else o'.bind f) = (if q then o else o').bind f := by split <;> rfl

theorem parseSetLink_iff {x : SetLinkArgs} : parseSetLink p = .ok x ↔ setLinkFits x ∧ p.drop 1 = setLinkArgs x := by
  obtain ⟨target, rate, timeout, resend⟩ := x
  have timeoutOf : ∀ v w : Nat, (if v = 0 then some 0 else within 50 10000 v) = some w ↔
      (w = 0 ∨ 50 ≤ w ∧ w ≤ 10000) ∧ v = w := fun v w => by
    split <;> simp <;> omega
  simp only [parseSetLink, setLinkFits, ite_bind, judged_ok_iff, Option.bind_eq_bind, Option.bind_eq_some_iff,
    Option.pure_def, Option.some.injEq, beq_iff_eq, existsAndEq, and_true, true_and, SetLinkArgs.mk.injEq, linkOf_iff,
      baudOf_iff, timeoutOf, within_iff]
  constructor
  · rintro ⟨hlen, htarget, hrate, h1, h2, rfl, rfl⟩
    simp (disch := omega) only [setLinkArgs, List.cons_append, List.nil_append, drop_eq_cons, Nat.reduceAdd, drop_eq_le,
      drop_eq_le_last]
    grind
  · rintro ⟨fits, h⟩
    simp (disch := omega) only [setLinkArgs, List.cons_append, List.nil_append, drop_eq_cons, Nat.reduceAdd, drop_eq_le,
      drop_eq_le_last] at h
    grind

theorem parseSetTrack_iff {k : TrackId} {x : TrackConfig} :
    parseSetTrack p = .ok (k, x) ↔ trackConfigFits x ∧ p.drop 1 = setTrackArgs k x := by
  obtain ⟨source, travel, sense, settleTime, window, overspeed, errorLimit, jumpLimit, sampleWidth, samplePeriod,
    scheduleLimit⟩ := x
  have width : sampleWidth ≤ 32 → 2 ^ (sampleWidth - 1) ≤ 2 ^ 31 := fun _ => Nat.pow_le_pow_right (by decide) (by omega)
  have windows : window ∈ [1, 2, 5, 10, 20] → window ≤ 20 := by simp; omega
  simp only [parseSetTrack, trackConfigFits, judged_ok_iff, Option.bind_eq_bind, Option.bind_eq_some_iff, Option.pure_def,
    Option.some.injEq, beq_iff_eq, existsAndEq, and_true, true_and, Prod.mk.injEq, TrackConfig.mk.injEq,
      indexOf_iff (show 4 ≤ 256 by decide),
    sourceOf_iff, travelOf_iff, senseOf_iff, within_iff, windowOf_iff]
  constructor
  · rintro ⟨hlen, hk, hsource, htravel, hsense, h1, h2, h3, h4, h5, h6, h7, h8, rfl, rfl, rfl, rfl, rfl, rfl, rfl, rfl⟩
    have windows := windows h2
    have width := width h5.2
    simp (disch := omega) only [setTrackArgs, List.cons_append, List.nil_append, List.append_assoc, drop_eq_cons,
      Nat.reduceAdd, drop_eq_le, drop_eq_le_last, ofNat_toNat_of_lt]
    grind
  · rintro ⟨⟨h1, h2, h3, h4, h5, h6, h7, h8, h9, h10, h11, h12⟩, h⟩
    have windows := windows h2
    have width := width h7
    simp (disch := omega) only [setTrackArgs, List.cons_append, List.nil_append, List.append_assoc, drop_eq_cons,
      Nat.reduceAdd, drop_eq_le, drop_eq_le_last, ofNat_toNat_of_lt] at h
    grind

theorem parseTrackValue_iff {k : TrackId} {x : Int} :
    parseTrackValue p = .ok (k, x) ↔ inRange x = true ∧ p.drop 1 = indexByte k :: leInt 6 x := by
  have range := signedAt6_range p 2
  simp only [parseTrackValue, judged_ok_iff, Option.bind_eq_bind, Option.bind_eq_some_iff, Option.pure_def,
    Option.some.injEq, beq_iff_eq, existsAndEq, true_and, Prod.mk.injEq, indexOf_iff (show 4 ≤ 256 by decide), inRange_iff]
  constructor
  · rintro ⟨hlen, hk, rfl⟩
    simp (disch := omega) only [drop_eq_cons, drop_eq_leInt6_last, Nat.reduceAdd]
    grind
  · rintro ⟨fits, h⟩
    simp (disch := omega) only [drop_eq_cons, drop_eq_leInt6_last, Nat.reduceAdd] at h
    grind

theorem parseSetSim_iff {k : TrackId} {x : Int} :
    parseSetSim p = .ok (k, x) ↔ (-10000000 ≤ x ∧ x ≤ 10000000) ∧ p.drop 1 = indexByte k :: leInt 4 x := by
  simp only [parseSetSim, judged_ok_iff, Option.bind_eq_bind, Option.bind_eq_some_iff, Option.pure_def, Option.some.injEq,
    beq_iff_eq, existsAndEq, and_true, true_and, Prod.mk.injEq, indexOf_iff (show 4 ≤ 256 by decide), withinInt_iff]
  constructor
  · rintro ⟨hlen, hk, fits, rfl⟩
    simp (disch := omega) only [drop_eq_cons, drop_eq_leInt4_last, Nat.reduceAdd]
    grind
  · rintro ⟨fits, h⟩
    simp (disch := omega) only [drop_eq_cons, drop_eq_leInt4_last, Nat.reduceAdd] at h
    grind

theorem parseCancelCue_iff {k : TrackId} {id : BitVec 16} :
    parseCancelCue p = .ok (k, id) ↔ p.drop 1 = indexByte k :: le 2 id.toNat := by
  have size := id.isLt
  have field := fieldAt_lt p 2 2
  simp only [parseCancelCue, judged_ok_iff, Option.bind_eq_bind, Option.bind_eq_some_iff, Option.pure_def, Option.some.injEq,
    beq_iff_eq, existsAndEq, true_and, Prod.mk.injEq, indexOf_iff (show 4 ≤ 256 by decide)]
  simp (disch := omega) only [drop_eq_cons, drop_eq_le_last, Nat.reduceAdd]
  constructor
  · rintro ⟨hlen, hk, rfl⟩
    rw [BitVec.toNat_ofNat, Nat.mod_eq_of_lt (by omega)]
    grind
  · rintro ⟨hlen, hk, hlen', hid⟩
    rw [hid, BitVec.ofNat_toNat, BitVec.setWidth_eq]
    grind

theorem parseQuerySchedule_iff {k : TrackId} {i n : Nat} :
    parseQuerySchedule p = .ok (k, i, n) ↔
      (i ≤ 511 ∧ 1 ≤ n ∧ n ≤ 8) ∧ p.drop 1 = indexByte k :: le 2 i ++ [BitVec.ofNat 8 n] := by
  simp only [parseQuerySchedule, judged_ok_iff, Option.bind_eq_bind, Option.bind_eq_some_iff, Option.pure_def,
    Option.some.injEq, beq_iff_eq, existsAndEq, and_true, true_and, Prod.mk.injEq, indexOf_iff (show 4 ≤ 256 by decide),
      within_iff]
  constructor
  · rintro ⟨hlen, hk, h1, h2, rfl, rfl⟩
    simp (disch := omega) only [List.cons_append, drop_eq_cons, List.drop_eq_nil_iff, Nat.reduceAdd, drop_eq_le,
      ofNat_toNat_of_lt]
    grind
  · rintro ⟨fits, h⟩
    simp (disch := omega) only [List.cons_append, drop_eq_cons, List.drop_eq_nil_iff, Nat.reduceAdd, drop_eq_le,
      ofNat_toNat_of_lt] at h
    grind

theorem markToleranceOf_iff {pitch v w : Nat} :
    markToleranceOf pitch v = some w ↔ (if pitch = 0 then w = 0 else w < pitch) ∧ v = w := by
  unfold markToleranceOf
  split <;> simp <;> omega

theorem parseSetMark_iff {k : TrackId} {x : MarkConfig} :
    parseSetMark p = .ok (k, x) ↔ markConfigFits x ∧ p.drop 1 = setMarkArgs k x := by
  obtain ⟨edge, blank, pitch, tolerance, limit, reports⟩ := x
  have small : (if pitch = 0 then tolerance = 0 else tolerance < pitch) → pitch ≤ 2147483647 → tolerance ≤ 2147483647 := by
    split <;> omega
  simp only [parseSetMark, markConfigFits, judged_ok_iff, Option.bind_eq_bind, Option.bind_eq_some_iff, Option.pure_def,
    Option.some.injEq, beq_iff_eq, existsAndEq, and_true, true_and, Prod.mk.injEq, MarkConfig.mk.injEq,
      indexOf_iff (show 4 ≤ 256 by decide),
    markEdgeOf_iff, within_iff, markToleranceOf_iff, yesNoOf_iff]
  constructor
  · rintro ⟨hlen, hk, hedge, h1, h2, h3, h4, hreports, rfl, rfl, rfl, rfl⟩
    have small := small h3 h2.2
    simp (disch := omega) only [setMarkArgs, List.cons_append, List.nil_append, List.append_assoc, drop_eq_cons,
      List.drop_eq_nil_iff, Nat.reduceAdd, drop_eq_le, ofNat_toNat_of_lt]
    grind
  · rintro ⟨⟨h1, h2, h3, h4⟩, h⟩
    have small := small h3 h2
    simp (disch := omega) only [setMarkArgs, List.cons_append, List.nil_append, List.append_assoc, drop_eq_cons,
      List.drop_eq_nil_iff, Nat.reduceAdd, drop_eq_le, ofNat_toNat_of_lt] at h
    grind

theorem parseSetLine_iff {n : LineId} {x : LineConfig} :
    parseSetLine p = .ok (n, x) ↔ lineFits x ∧ p.drop 1 = setLineArgs n x := by
  obtain ⟨enabled, track, profile, offset, policy, polarity⟩ := x
  simp only [parseSetLine, lineFits, judged_ok_iff, Option.bind_eq_bind, Option.bind_eq_some_iff, Option.pure_def,
    Option.some.injEq, beq_iff_eq, existsAndEq, and_true, true_and, Prod.mk.injEq, LineConfig.mk.injEq,
      indexOf_iff (show 16 ≤ 256 by decide),
    indexOf_iff (show 4 ≤ 256 by decide), indexOf_iff (show 8 ≤ 256 by decide), yesNoOf_iff, withinInt_iff, policyOf_iff,
    polarityOf_iff]
  constructor
  · rintro ⟨hlen, hn, henabled, htrack, hprofile, h1, hpolicy, hpolarity, rfl⟩
    simp (disch := omega) only [setLineArgs, List.cons_append, List.nil_append, drop_eq_cons, List.drop_eq_nil_iff,
      Nat.reduceAdd, drop_eq_leInt4]
    grind
  · rintro ⟨fits, h⟩
    simp (disch := omega) only [setLineArgs, List.cons_append, List.nil_append, drop_eq_cons, List.drop_eq_nil_iff,
      Nat.reduceAdd, drop_eq_leInt4] at h
    grind

theorem widthOf_iff {mode : PulseMode} {v w : Nat} :
    widthOf mode v = some w ↔ (1 ≤ w ∧ w ≤ (if mode = .time then 65535 else 16777215)) ∧ v = w := by
  cases mode <;> simp [widthOf]

theorem maxOnOf_iff {mode : PulseMode} {v w : Nat} :
    maxOnOf mode v = some w ↔ w ≤ (if mode = .time then 0 else 65535) ∧ v = w := by
  cases mode <;> simp [maxOnOf]

theorem parseSetProfile_iff {i : ProfileId} {x : Profile} :
    parseSetProfile p = .ok (i, x) ↔ profileFits x ∧ p.drop 1 = setProfileArgs i x := by
  obtain ⟨mode, width, holdoff, minSpeed, maxOn⟩ := x
  have bounds : (if mode = .time then 65535 else 16777215) ≤ 16777215 ∧ (if mode = .time then 0 else 65535) ≤ 65535 := by
    split <;> decide
  simp only [parseSetProfile, profileFits, judged_ok_iff, Option.bind_eq_bind, Option.bind_eq_some_iff, Option.pure_def,
    Option.some.injEq, beq_iff_eq, existsAndEq, and_true, true_and, Prod.mk.injEq, Profile.mk.injEq,
      indexOf_iff (show 8 ≤ 256 by decide),
    pulseModeOf_iff, widthOf_iff, within_iff, maxOnOf_iff]
  constructor
  · rintro ⟨hlen, hi, hmode, h1, h2, h3, h4, rfl, rfl, rfl, rfl⟩
    simp (disch := omega) only [setProfileArgs, List.cons_append, List.nil_append, List.append_assoc, drop_eq_cons,
      Nat.reduceAdd, drop_eq_le, drop_eq_le_last]
    grind
  · rintro ⟨⟨h1, h2, h3, h4, h5⟩, h⟩
    simp (disch := omega) only [setProfileArgs, List.cons_append, List.nil_append, List.append_assoc, drop_eq_cons,
      Nat.reduceAdd, drop_eq_le, drop_eq_le_last] at h
    grind

theorem parseForceLine_iff {n : LineId} {w : Nat} :
    parseForceLine p = .ok (n, w) ↔ (1 ≤ w ∧ w ≤ 65535) ∧ p.drop 1 = indexByte n :: le 2 w := by
  simp only [parseForceLine, judged_ok_iff, Option.bind_eq_bind, Option.bind_eq_some_iff, Option.pure_def, Option.some.injEq,
    beq_iff_eq, existsAndEq, and_true, true_and, Prod.mk.injEq, indexOf_iff (show 16 ≤ 256 by decide), within_iff]
  constructor
  · rintro ⟨hlen, hn, fits, rfl⟩
    simp (disch := omega) only [drop_eq_cons, drop_eq_le_last, Nat.reduceAdd]
    grind
  · rintro ⟨fits, h⟩
    simp (disch := omega) only [drop_eq_cons, drop_eq_le_last, Nat.reduceAdd] at h
    grind

theorem kindsOf_iff {v : Nat} {f : FaultSet} : kindsOf v = some f ↔ f ≠ ⟨false, false, false⟩ ∧ v = f.code.toNat := by
  have table : ∀ a b c : Bool, (FaultSet.code ⟨a, b, c⟩).toNat = 0 ↔ (⟨a, b, c⟩ : FaultSet) = ⟨false, false, false⟩ := by decide
  have zero : f.code.toNat = 0 ↔ f = ⟨false, false, false⟩ := table f.openLoad f.overload f.stuck
  unfold kindsOf
  rw [Ne, ← zero]
  split
  · simp
    omega
  · rw [faultSetOf_iff]
    omega

theorem parseClearLineFault_iff {n : LineId} {f : FaultSet} :
    parseClearLineFault p = .ok (n, f) ↔ f ≠ ⟨false, false, false⟩ ∧ p.drop 1 = [indexByte n, f.code] := by
  simp only [parseClearLineFault, judged_ok_iff, Option.bind_eq_bind, Option.bind_eq_some_iff, Option.pure_def,
    Option.some.injEq, beq_iff_eq, existsAndEq, and_true, Prod.mk.injEq, indexOf_iff (show 16 ≤ 256 by decide), kindsOf_iff,
      drop_eq_cons,
    List.drop_eq_nil_iff, Nat.reduceAdd]
  grind

/-- An optional field, which is read exactly when its flag is set (R186). -/
theorem fieldIf_iff {α : Type} {flag : Bool} {o : Option α} {x : Option α} :
    fieldIf flag o = some x ↔ flag = x.isSome ∧ ∀ y ∈ x, o = some y := by
  cases flag <;> cases x <;> simp [fieldIf]

/-- An optional byte of the arguments stands exactly where it is read (R186). -/
theorem drop_eq_optional_byte {α : Type} {i : Nat} {rest : List Byte} (code : α → Byte) (x : Option α) (hi : i ≤ p.length) :
    p.drop i = (x.map code).toList ++ rest ↔ i + sizeIf x.isSome 1 ≤ p.length ∧ (∀ y ∈ x, fieldAt p i 1 = (code y).toNat) ∧
      p.drop (i + sizeIf x.isSome 1) = rest := by
  cases x with
  | none => simp [sizeIf, hi]
  | some y => simp [sizeIf, drop_eq_cons]

/-- An optional field of the arguments stands exactly where it is read (R186). -/
theorem drop_eq_optional_le {i n : Nat} {rest : List Byte} {x : Option Nat} (hn : 0 < n) (hx : ∀ v ∈ x, v < 256 ^ n)
    (hi : i ≤ p.length) :
    p.drop i = ((x.map (le n)).getD []) ++ rest ↔ i + sizeIf x.isSome n ≤ p.length ∧ (∀ v ∈ x, fieldAt p i n = v) ∧
      p.drop (i + sizeIf x.isSome n) = rest := by
  cases x with
  | none => simp [sizeIf, hi]
  | some v => simp [sizeIf, drop_eq_le hn (hx v rfl)]

/-- The four flag bits of a flags byte without others (R186). -/
theorem flags_iff {v : Nat} {a b c d : Bool} :
    v ≤ 15 ∧ v.testBit 0 = a ∧ v.testBit 1 = b ∧ v.testBit 2 = c ∧ v.testBit 3 = d ↔ v = (flagsByte [a, b, c, d]).toNat := by
  have table : ∀ x : Fin 16, ∀ a b c d : Bool, (x.val.testBit 0 = a ∧ x.val.testBit 1 = b ∧ x.val.testBit 2 = c ∧
      x.val.testBit 3 = d) ↔ x.val = (flagsByte [a, b, c, d]).toNat := by decide
  have bound : ∀ a b c d : Bool, (flagsByte [a, b, c, d]).toNat < 16 := by decide
  constructor
  · rintro ⟨h, bits⟩
    exact (table ⟨v, by omega⟩ a b c d).1 bits
  · rintro rfl
    exact ⟨Nat.le_of_lt_succ (bound a b c d), (table ⟨_, bound a b c d⟩ a b c d).2 rfl⟩

theorem parseFlush_iff {k : TrackId} {n : Option LineId} :
    parseFlush p = .ok (k, n) ↔ p.drop 1 = indexByte k :: (n.map indexByte).toList := by
  simp only [parseFlush, judged_ok_iff, Option.bind_eq_bind, Option.bind_eq_some_iff, Option.pure_def, Option.some.injEq,
    beq_iff_eq, existsAndEq, and_true, Prod.mk.injEq, indexOf_iff (show 4 ≤ 256 by decide),
      indexOf_iff (show 16 ≤ 256 by decide),
    fieldIf_iff, Bool.or_eq_true]
  cases n <;> simp only [Option.map_none, Option.map_some, Option.toList_none, Option.toList_some, drop_eq_cons,
    List.drop_eq_nil_iff, Nat.reduceAdd] <;> grind

/-- What a parsed HOME spells (R16). -/
theorem parseHome_spells {k : TrackId} {arm : Option Int} (h : parseHome p = .ok (k, arm)) :
    (∃ x, inRange x = true ∧ p.drop 1 = indexByte k :: 1 :: leInt 6 x) ∨
      ∃ v : List Byte, v.length = 6 ∧ p.drop 1 = indexByte k :: 0 :: v := by
  have range := signedAt6_range p 3
  simp only [parseHome, judged_ok_iff, Option.bind_eq_bind, Option.bind_eq_some_iff, Option.pure_def, Option.some.injEq,
    beq_iff_eq, existsAndEq, true_and, Prod.mk.injEq, indexOf_iff (show 4 ≤ 256 by decide), yesNoOf_iff] at h
  obtain ⟨hlen, yes, hk, hyes, -⟩ := h
  cases yes with
  | true =>
    refine .inl ⟨signedAt p 3 6, inRange_iff.2 range, ?_⟩
    simp (disch := omega) only [drop_eq_cons, drop_eq_leInt6_last, Nat.reduceAdd]
    grind
  | false =>
    refine .inr ⟨p.drop 3, by simp [hlen], ?_⟩
    simp only [drop_eq_cons, Nat.reduceAdd]
    grind

/-- The value of the four bytes of a key (Table 11-7). -/
def keyValue : CueKey → Nat
  | .host id => id.toNat
  | .mark e seq => e.val + 65536 * seq.toNat

theorem key_bytes (key : CueKey) : key.bytes = le 4 (keyValue key) := by
  cases key with
  | host id =>
    have := id.isLt
    have high : id.toNat / 256 / 256 = 0 := by omega
    simp [CueKey.bytes, keyValue, le, high]
  | mark e seq =>
    have := seq.isLt
    have low : BitVec.ofNat 8 (e.val + 65536 * seq.toNat) = indexByte e :=
      BitVec.eq_of_toNat_eq (by rw [indexByte_toNat e (by decide), BitVec.toNat_ofNat]; omega)
    have fixed : BitVec.ofNat 8 ((e.val + 65536 * seq.toNat) / 256) = 0 :=
      BitVec.eq_of_toNat_eq (by
        have := e.isLt
        rw [BitVec.toNat_ofNat, show BitVec.toNat (0 : Byte) = 0 from rfl]
        omega)
    have high : (e.val + 65536 * seq.toNat) / 256 / 256 = seq.toNat := by omega
    simp [CueKey.bytes, keyValue, le, low, fixed, high]

theorem keyValue_lt (key : CueKey) : keyValue key < 256 ^ 4 := by
  cases key with
  | host id =>
    have := id.isLt
    simp only [keyValue]
    omega
  | mark e seq =>
    have := seq.isLt
    simp only [keyValue]
    omega

theorem keyOf_iff {o v : Nat} {key : CueKey} (hv : v < 256 ^ 4) :
    keyOf o v = some key ↔ o = key.origin.toNat ∧ v = keyValue key := by
  unfold keyOf
  split
  case h_1 =>
    cases key with
    | host id =>
      have := id.isLt
      simp [CueKey.origin, keyValue, ← BitVec.toNat_inj, BitVec.toNat_ofNat]
      omega
    | mark e seq => simp [CueKey.origin]
  case h_2 =>
    cases key with
    | host id => simp [CueKey.origin]
    | mark e seq =>
      have := seq.isLt
      have : (indexByte e).toNat = e.val := indexByte_toNat e (by decide)
      simp [CueKey.origin, keyValue, ← BitVec.toNat_inj, BitVec.toNat_ofNat]
      omega
  case h_3 h0 h1 =>
    cases key with
    | host id => simpa [CueKey.origin] using fun h => absurd h h0
    | mark e seq => simpa [CueKey.origin] using fun h => absurd h h1

theorem parseQueryCue_iff {k : TrackId} {key : CueKey} :
    parseQueryCue p = .ok (k, key) ↔ p.drop 1 = indexByte k :: key.origin :: key.bytes := by
  simp only [parseQueryCue, judged_ok_iff, Option.bind_eq_bind, Option.bind_eq_some_iff, Option.pure_def, Option.some.injEq,
    beq_iff_eq, existsAndEq, and_true, Prod.mk.injEq, indexOf_iff (show 4 ≤ 256 by decide), keyOf_iff (fieldAt_lt p 3 4),
      key_bytes,
    drop_eq_cons, drop_eq_le_last (show 0 < 4 by decide) (keyValue_lt key), Nat.reduceAdd]
  grind

/-- The sweep periods that SET_SUPERVISION takes (R132). -/
theorem periodOf_iff {v w : Nat} : (if v = 0 then some 0 else within 100 60000 v) = some w ↔ periodFits w ∧ v = w := by
  unfold periodFits
  split <;> simp <;> omega

theorem parseSetSupervision_period {ms : Nat} : parseSetSupervision p = .ok (ms,
  none) ↔ periodFits ms ∧ p.drop 1 = le 2 ms := by
  simp only [parseSetSupervision, ite_bind, judged_ok_iff, Option.bind_eq_bind, Option.bind_eq_some_iff, Option.pure_def,
    Option.some.injEq, beq_iff_eq, existsAndEq, and_true, Prod.mk.injEq, periodOf_iff, fieldIf_iff, Bool.or_eq_true]
  constructor
  · rintro ⟨hlen, fits, ⟨hflag, -⟩, rfl⟩
    unfold periodFits at fits
    simp (disch := omega) only [drop_eq_le_last]
    simp at hflag
    grind [periodFits]
  · rintro ⟨fits, h⟩
    unfold periodFits at fits
    simp (disch := omega) only [drop_eq_le_last] at h
    simp
    grind [periodFits]

theorem parseSetSupervision_entry {ms b : Nat} {n : LineId} {masks : FaultSet} :
    parseSetSupervision p = .ok (ms, some ⟨n, masks, b⟩) ↔
      (periodFits ms ∧ b ≤ 1000) ∧ p.drop 1 = le 2 ms ++ [indexByte n, masks.code] ++ le 2 b := by
  simp only [parseSetSupervision, ite_bind, judged_ok_iff, Option.bind_eq_bind, Option.bind_eq_some_iff, Option.pure_def,
    Option.some.injEq, beq_iff_eq, existsAndEq, and_true, true_and, Prod.mk.injEq, periodOf_iff, fieldIf_iff,
      Bool.or_eq_true, Option.mem_def,
    forall_eq', Option.isSome_some, SupervisionEntry.mk.injEq, indexOf_iff (show 16 ≤ 256 by decide), faultSetOf_iff,
      within_iff]
  constructor
  · rintro ⟨-, fits, ⟨hlen, hn, hmasks, hb, rfl⟩, rfl⟩
    unfold periodFits at fits
    simp (disch := omega) only [List.cons_append, List.nil_append, List.append_assoc, drop_eq_cons, Nat.reduceAdd,
      drop_eq_le, drop_eq_le_last]
    grind [periodFits]
  · rintro ⟨⟨fits, hb⟩, h⟩
    have fits' := fits
    unfold periodFits at fits
    simp (disch := omega) only [List.cons_append, List.nil_append, List.append_assoc, drop_eq_cons, Nat.reduceAdd,
      drop_eq_le, drop_eq_le_last] at h
    grind

theorem drop_eq_repetition {i : Nat} {x : Option CueRepeat}
    (hx : ∀ r ∈ x, 1 ≤ r.pitch ∧ r.pitch ≤ 2147483647 ∧ 1 ≤ r.remaining ∧ r.remaining ≤ 65535) (hi : i ≤ p.length) :
    p.drop i = ((x.map fun r => le 4 r.pitch ++ le 2 r.remaining).getD []) ↔ p.length = i + sizeIf x.isSome 6 ∧
      ∀ r ∈ x, fieldAt p i 4 = r.pitch ∧ fieldAt p (i + 4) 2 = r.remaining := by
  cases x with
  | none => simp [sizeIf]; omega
  | some r =>
    obtain ⟨h1, h2, h3, h4⟩ := hx r rfl
    simp (disch := omega) [sizeIf, drop_eq_le, drop_eq_le_last]
    grind

/-- The arguments of ADD_CUE field by field (Table 11-6). -/
theorem drop_eq_addCueArgs {x : AddCueArgs} (fits : addCueFits x) :
    p.drop 1 = addCueArgs x ↔
      p.length = 13 + sizeIf x.profile.isSome 1 + sizeIf x.width.isSome 4 + sizeIf x.tolerance.isSome 4 +
        sizeIf x.repetition.isSome 6 ∧
      fieldAt p 1 1 = (indexByte x.track).toNat ∧ fieldAt p 2 1 = (indexByte x.line).toNat ∧
      fieldAt p 3 1 = (flagsByte [x.profile.isSome, x.width.isSome, x.tolerance.isSome, x.repetition.isSome]).toNat ∧
      fieldAt p 4 2 = x.id.toNat ∧ signedAt p 6 6 = x.nominal ∧ fieldAt p 12 1 = x.notify.code.toNat ∧
      (∀ y ∈ x.profile, fieldAt p 13 1 = (indexByte y).toNat) ∧
      (∀ y ∈ x.width, fieldAt p (13 + sizeIf x.profile.isSome 1) 4 = y) ∧
      (∀ y ∈ x.tolerance, fieldAt p (13 + sizeIf x.profile.isSome 1 + sizeIf x.width.isSome 4) 4 = y) ∧
      ∀ y ∈ x.repetition,
        fieldAt p (13 + sizeIf x.profile.isSome 1 + sizeIf x.width.isSome 4 + sizeIf x.tolerance.isSome 4) 4 = y.pitch ∧
        fieldAt p (13 + sizeIf x.profile.isSome 1 + sizeIf x.width.isSome 4 + sizeIf x.tolerance.isSome 4 + 4) 2 =
          y.remaining := by
  obtain ⟨hnominal, hwidth, htolerance, hrepetition⟩ := fits
  have nominal := inRange_iff.1 hnominal
  have size := x.id.isLt
  have widths : ∀ v ∈ x.width, v < 256 ^ 4 := fun v hv => by have := hwidth v hv; omega
  have tolerances : ∀ v ∈ x.tolerance, v < 256 ^ 4 := fun v hv => by have := htolerance v hv; omega
  simp (disch := omega) only [addCueArgs, List.cons_append, List.nil_append, List.append_assoc, drop_eq_cons, drop_eq_le,
    drop_eq_leInt6, Nat.reduceAdd]
  by_cases fixed : 13 ≤ p.length
  · rw [drop_eq_optional_byte indexByte x.profile fixed]
    by_cases h1 : 13 + sizeIf x.profile.isSome 1 ≤ p.length
    · rw [drop_eq_optional_le (by decide) widths h1]
      by_cases h2 : 13 + sizeIf x.profile.isSome 1 + sizeIf x.width.isSome 4 ≤ p.length
      · rw [drop_eq_optional_le (by decide) tolerances h2]
        by_cases h3 : 13 + sizeIf x.profile.isSome 1 + sizeIf x.width.isSome 4 + sizeIf x.tolerance.isSome 4 ≤ p.length
        · rw [drop_eq_repetition hrepetition h3]
          grind
        · grind
      · grind
    · grind
  · grind

theorem parseAddCue_iff {x : AddCueArgs} : parseAddCue p = .ok x ↔ addCueFits x ∧ p.drop 1 = addCueArgs x := by
  rw [and_congr_right drop_eq_addCueArgs]
  obtain ⟨k, n, id, nominal, notify, profile, width, tolerance, repetition⟩ := x
  have size := id.isLt
  have field := fieldAt_lt p 4 2
  have range := signedAt6_range p 6
  simp only [parseAddCue, judged_ok_iff, Option.bind_eq_bind, Option.bind_eq_some_iff, Option.pure_def, Option.some.injEq,
    beq_iff_eq, existsAndEq, and_true,
    true_and, AddCueArgs.mk.injEq, Bool.and_eq_true, decide_eq_true_eq, indexOf_iff (show 4 ≤ 256 by decide),
    indexOf_iff (show 16 ≤ 256 by decide), indexOf_iff (show 8 ≤ 256 by decide), within_iff, notifyOf_iff, fieldIf_iff]
  constructor
  · rintro ⟨⟨-, hlen⟩, hk, hn, hflags, hnotify, ⟨b0, hprofile⟩, ⟨b1, hwidth⟩, ⟨b2, htolerance⟩, ⟨b3, hrepetition⟩, rfl, rfl⟩
    have flags := flags_iff.1 ⟨hflags.2, b0, b1, b2, b3⟩
    simp only [b0, b1, b2, b3] at hlen hwidth htolerance hrepetition
    have id : (BitVec.ofNat 16 (fieldAt p 4 2)).toNat = fieldAt p 4 2 := by
      rw [BitVec.toNat_ofNat, Nat.mod_eq_of_lt (by omega)]
    refine ⟨⟨inRange_iff.2 range, fun v hv => (hwidth v hv).1, fun v hv => (htolerance v hv).1.2, fun r hr => ?_⟩, hlen, hk, hn,
      flags, id.symm, rfl, hnotify, hprofile, fun y hy => (hwidth y hy).2, fun y hy => (htolerance y hy).2, fun r hr => ?_⟩
    · obtain ⟨⟨h1, h2⟩, ⟨h3, h4⟩, rfl⟩ := hrepetition r hr
      exact ⟨h1, h2, h3, h4⟩
    · obtain ⟨-, -, rfl⟩ := hrepetition r hr
      exact ⟨rfl, rfl⟩
  · rintro ⟨⟨hnominal, hw, ht, hr⟩, hlen, hk, hn, flags, hid, rfl, hnotify, hprofile, hwidth, htolerance, hrepetition⟩
    obtain ⟨hflags, b0, b1, b2, b3⟩ := flags_iff.2 flags
    simp only [b0, b1, b2, b3]
    refine ⟨⟨by omega, hlen⟩, hk, hn, ⟨Nat.zero_le _, hflags⟩, hnotify, ⟨trivial, hprofile⟩,
      ⟨trivial, fun y hy => ⟨hw y hy, hwidth y hy⟩⟩, ⟨trivial, fun y hy => ⟨⟨Nat.zero_le _, ht y hy⟩, htolerance y hy⟩⟩,
      ⟨trivial, fun y hy => ?_⟩, ?_, trivial⟩
    · obtain ⟨e1, e2⟩ := hrepetition y hy
      obtain ⟨h1, h2, h3, h4⟩ := hr y hy
      rw [e1, e2]
      exact ⟨⟨h1, h2⟩, ⟨h3, h4⟩, rfl⟩
    · rw [hid, BitVec.ofNat_toNat, BitVec.setWidth_eq]

/-- The arguments of SET_TEMPLATE field by field (Table 11-3). -/
theorem drop_eq_setTemplateArgs {k : TrackId} {e : EntryId} {x : Template} (fits : templateFits x) :
    p.drop 1 = setTemplateArgs k e x ↔
      p.length = 10 + sizeIf x.profile.isSome 1 + sizeIf x.width.isSome 4 + sizeIf x.tolerance.isSome 4 ∧
      fieldAt p 1 1 = (indexByte k).toNat ∧ fieldAt p 2 1 = (indexByte e).toNat ∧
      fieldAt p 3 1 = (flagsByte [x.enabled, x.profile.isSome, x.width.isSome, x.tolerance.isSome]).toNat ∧
      fieldAt p 4 4 = x.offset ∧ fieldAt p 8 1 = (indexByte x.line).toNat ∧ fieldAt p 9 1 = x.notify.code.toNat ∧
      (∀ y ∈ x.profile, fieldAt p 10 1 = (indexByte y).toNat) ∧
      (∀ y ∈ x.width, fieldAt p (10 + sizeIf x.profile.isSome 1) 4 = y) ∧
      ∀ y ∈ x.tolerance, fieldAt p (10 + sizeIf x.profile.isSome 1 + sizeIf x.width.isSome 4) 4 = y := by
  obtain ⟨hoffset, hwidth, htolerance⟩ := fits
  have widths : ∀ v ∈ x.width, v < 256 ^ 4 := fun v hv => by have := hwidth v hv; omega
  have tolerances : ∀ v ∈ x.tolerance, v < 256 ^ 4 := fun v hv => by have := htolerance v hv; omega
  simp (disch := omega) only [setTemplateArgs, List.cons_append, List.nil_append, List.append_assoc, drop_eq_cons, drop_eq_le,
    Nat.reduceAdd]
  by_cases fixed : 10 ≤ p.length
  · rw [drop_eq_optional_byte indexByte x.profile fixed]
    by_cases h1 : 10 + sizeIf x.profile.isSome 1 ≤ p.length
    · rw [drop_eq_optional_le (by decide) widths h1]
      by_cases h2 : 10 + sizeIf x.profile.isSome 1 + sizeIf x.width.isSome 4 ≤ p.length
      · have last := drop_eq_optional_le (n := 4) (rest := []) (by decide) tolerances h2
        rw [List.append_nil, List.drop_eq_nil_iff] at last
        rw [last]
        grind
      · grind
    · grind
  · grind

theorem parseSetTemplate_iff {k : TrackId} {e : EntryId} {x : Template} :
    parseSetTemplate p = .ok (k, e, x) ↔ templateFits x ∧ p.drop 1 = setTemplateArgs k e x := by
  rw [and_congr_right drop_eq_setTemplateArgs]
  obtain ⟨enabled, offset, n, profile, width, tolerance, notify⟩ := x
  simp only [parseSetTemplate, judged_ok_iff, Option.bind_eq_bind, Option.bind_eq_some_iff, Option.pure_def,
    Option.some.injEq, beq_iff_eq, existsAndEq, and_true,
    true_and, Prod.mk.injEq, Template.mk.injEq, Bool.and_eq_true, decide_eq_true_eq,
    indexOf_iff (show 4 ≤ 256 by decide), indexOf_iff (show 16 ≤ 256 by decide), indexOf_iff (show 8 ≤ 256 by decide),
    within_iff, notifyOf_iff, fieldIf_iff]
  constructor
  · rintro ⟨⟨-, hlen⟩, hk, he, hflags, hoffset, hn, hnotify, ⟨b1, hprofile⟩, ⟨b2, hwidth⟩, ⟨b3, htolerance⟩, b0, rfl⟩
    have flags := flags_iff.1 ⟨hflags.2, b0, b1, b2, b3⟩
    simp only [b1, b2, b3] at hlen hwidth htolerance
    exact ⟨⟨hoffset.2, fun v hv => (hwidth v hv).1, fun v hv => (htolerance v hv).1.2⟩, hlen, hk, he,
      flags, rfl, hn, hnotify, hprofile, fun y hy => (hwidth y hy).2, fun y hy => (htolerance y hy).2⟩
  · rintro ⟨⟨hoffset, hw, ht⟩, hlen, hk, he, flags, rfl, hn, hnotify, hprofile, hwidth, htolerance⟩
    obtain ⟨hflags, b0, b1, b2, b3⟩ := flags_iff.2 flags
    simp only [b0, b1, b2, b3]
    exact ⟨⟨by omega, hlen⟩, hk, he, ⟨Nat.zero_le _, hflags⟩, ⟨Nat.zero_le _, hoffset⟩, hn, hnotify, ⟨trivial, hprofile⟩,
      ⟨trivial, fun y hy => ⟨hw y hy, hwidth y hy⟩⟩, ⟨trivial, fun y hy => ⟨⟨Nat.zero_le _, ht y hy⟩, htolerance y hy⟩⟩,
        trivial, trivial⟩

end

end Sys2Proof.Machine
end

section
/-! SUPPORT. The statements about the commands of the tracks: SET_TRACK, ENABLE_TRACK, DISABLE_TRACK, PRESET, REBASE,
  QUERY_TRACK and
CLEAR_TRACK_FAULT (01, 02). -/

namespace Sys2Proof.Machine

-- One proof at a time: proofs elaborated side by side would hold a thread each, and its stack.
set_option Elab.async false

/-! ### SET_TRACK (R4, R36) -/

theorem length_setTrackArgs (k : TrackId) (c : TrackConfig) : (setTrackArgs k c).length = 21 := by simp [setTrackArgs]

theorem changesDisabledOnly_iff (old new : TrackConfig) : changesDisabledOnly old new = true ↔
    old.source ≠ new.source ∨ old.travel ≠ new.travel ∨ old.sense ≠ new.sense ∨ old.sampleWidth ≠ new.sampleWidth := by
  simp only [changesDisabledOnly, Bool.or_eq_true, bne_iff_ne, or_assoc]

/-- Arguments of the length of SET_TRACK that spell no configuration in range are BAD_VALUE (R4, R186). -/
theorem parseSetTrack_badValue {c : Byte} {a : List Byte} (ha : a.length = 21)
    (h : ∀ k x, trackConfigFits x → a ≠ setTrackArgs k x) : parseSetTrack (c :: a) = .error .badValue :=
  judged_badValue (beq_iff_eq.2 (congrArg Nat.succ ha)) fun ⟨k, x⟩ hx =>
    have ⟨fits, spelled⟩ := parseSetTrack_iff.1 hx
    h k x fits spelled

/-- Settles O15: the configuration is read back, and the checks of R4 are made in order. -/
theorem setTrackStoresEveryField : Obligations.SetTrackStoresEveryField := by
  unfold Obligations.SetTrackStoresEveryField
  refine ⟨fun s l seq k c hr ho hc => ?_, fun s l seq a hr ha h => ?_⟩
  · intro t i p moves
    have parsed : parseSetTrack p = .ok (k, c) := parseSetTrack_iff.2 ⟨hc, rfl⟩
    have fits : p.length ≤ Config.maxPayload := by simp [p, length_setTrackArgs, Config.maxPayload]
    have run : ∀ L Q, runSetTrack l p (withLinks L Q s) =
        if t.state ≠ .disabled ∧ moves then refuse .trackEnabled (withLinks L Q s)
        else if c.scheduleLimit < cueCount s k then refuse .badValue (withLinks L Q s)
        else done (withLinks L Q (setTrack k (configuredTrack t c) s)) := fun L Q => by
      have owner : trackOwner (withLinks L Q s) k ≠ some (otherLink l) := ho
      simp only [runSetTrack, parsed, withArgs, onTrack_allowed owner, withLinks_tracks, withLinks_cueCount,
        changesDisabledOnly_iff]
      rfl
    refine ⟨fun hs hm => ?enabled, fun hs hl => ?below, fun hs hl => ?stored⟩ <;>
      refine answered_of_effect s l runSetTrack rfl hr (List.cons_ne_nil _ _) fits fun L Q _ _ => (run L Q).trans ?_
    case enabled => rw [if_pos ⟨hs, hm⟩]; rfl
    case below => rw [if_neg fun h => hs.elim h.1 fun hm => hm h.2, if_pos hl]; rfl
    case stored => rw [if_neg fun h => hs.elim h.1 fun hm => hm h.2, if_neg (Nat.not_lt.2 hl)]; rfl
  · refine answered_of_effect s l runSetTrack rfl hr (List.cons_ne_nil _ _) (by simp [ha, Config.maxPayload]) fun L Q _ _ => ?_
    rw [runSetTrack, parseSetTrack_badValue ha fun k x hx => h k x hx]
    rfl

/-! ### ENABLE_TRACK and DISABLE_TRACK (R7, R14) -/

/-- A track unit that starts to settle (R8). -/
theorem startSettle_eq (s : State) (t : Track) : startSettle s t = { t with
    state := if t.cfg.settleTime = 0 then .running else .settling
    settleTimer := if t.cfg.settleTime = 0 then none else some (s.now + t.cfg.settleTime * 1000) } := by
  unfold startSettle
  split <;> simp [afterMs]

section
variable {s : State} {l : LinkId} {seq : Byte} {k : TrackId} (hr : Ready l seq s) (ho : trackOwner s k ≠ some (otherLink l))
include hr ho

/-- A command whose one argument is a track, on a link that may command it (R161, R186). -/
theorem track_answered {run : LinkId → List Byte → State → Answer} {i : Instr} {c : Byte} {f : TrackId → State → Answer}
    (hi : exec i s = .next (hostCommand run l seq [c, indexByte k] s))
    (hrun : ∀ u, run l [c, indexByte k] u = withArgs (parseTrack [c, indexByte k]) u fun k => onTrack l k u (f k u))
    {status : Status} {results : List Byte} {t : State}
    (h : ∀ L Q, f k (withLinks L Q s) = ⟨status, results, withLinks L Q t⟩) :
    Answered i l seq [c, indexByte k] status results s t :=
  answered_of_effect s l run hi hr (List.cons_ne_nil _ _) (by simp [Config.maxPayload]) fun L Q _ _ => by
    have owner : trackOwner (withLinks L Q s) k ≠ some (otherLink l) := ho
    rw [hrun, parseTrack_index, withArgs, onTrack_allowed owner, h]

end

/-- Settles O16: the checks of R7, then the track unit, its source and its schedule start anew. -/
theorem enableTrackStartsSettling : Obligations.EnableTrackStartsSettling := by
  unfold Obligations.EnableTrackStartsSettling
  intro s l seq k hr ho t i p
  have started : ∀ L Q, enabledTrack (withLinks L Q s) k = enabledTrack s k := fun _ _ => rfl
  refine ⟨fun hs => ?_, fun hs hsource => ?_, fun hs hsource => ?_⟩ <;>
    refine track_answered hr ho (run := runEnableTrack) rfl (fun _ => rfl) fun L Q => ?_
  · rw [withLinks_tracks, if_pos hs]; rfl
  · rw [withLinks_tracks, if_neg (not_not_intro hs), if_pos hsource]; rfl
  · rw [withLinks_tracks, if_neg (not_not_intro hs), if_neg hsource, done, enableTrackUnit, started, enabledTrack,
    startSettle_eq]
    rfl

section
variable (s : State) (k : TrackId)

/-- Before a command of a track the CSU and MUk take what it told them; the tracks, the links and the queues stay (log 4). -/
theorem settleNotices_frame : (settleNotices k s).tracks = s.tracks ∧ (settleNotices k s).links = s.links ∧
    (settleNotices k s).queues = s.queues := by
  obtain ⟨ct, cl, cq, -⟩ := takeAllCsuNotices_beside s k
  obtain ⟨⟨mt, ml, mq, -⟩, -⟩ := takeAllMarkNotices_beside (takeAllCsuNotices k s) k
  exact ⟨mt.trans ct, ml.trans cl, mq.trans cq⟩

/-- What a disabling leaves of its track, the schedule and the mark unit, and of the links and queues (R14). -/
theorem disableTrackUnit_frame :
    (disableTrackUnit k s).tracks = s.tracks.set k (disabledTrack s.tracks[k]) ∧
      (disableTrackUnit k s).csu.schedules = s.csu.schedules.set k [] ∧
      (disableTrackUnit k s).marks = s.marks.set k { s.marks[k] with state := .off, valid := false } ∧
      (disableTrackUnit k s).links = s.links ∧ (disableTrackUnit k s).queues = s.queues := by
  have none : s.csu.schedules[k].filter (fun _ => false) = [] := List.filter_false _
  simp only [disableTrackUnit, tellDistanceLines_eq]
  exact ⟨rfl, congrArg (s.csu.schedules.set k) none, rfl, rfl, rfl⟩

/-- The exact effects of a disabling (R14, R27, R29). -/
theorem disableTrackUnit_eq : disableTrackUnit k s =
    { setMark k { s.marks[k] with state := .off, valid := false } (setTrack k (disabledTrack s.tracks[k]) s) with
      csu := { s.csu with schedules := s.csu.schedules.set k [] }
      transit := { s.transit with toLine := toldLines k (.truncate k .track) s } } := by
  have none : s.csu.schedules[k].filter (fun _ => false) = [] := List.filter_false _
  simp only [disableTrackUnit, tellDistanceLines_eq, bulkRemove, none]
  rfl

end

/-- Settles O17: a DISABLED track has nothing to flush; any other is disabled on the state in which its notices have been taken. -/
theorem disableTrackFlushes : Obligations.DisableTrackFlushes := by
  unfold Obligations.DisableTrackFlushes
  intro s l seq k hr ho t i p
  refine ⟨fun hs => ?idle, fun hs => ?disabled, fun hs he hcsu hmark => ?exact⟩
  case idle =>
    refine track_answered hr ho (run := runDisableTrack) rfl (fun _ => rfl) fun L Q => ?_
    rw [withLinks_tracks, if_pos hs]
    rfl
  case disabled =>
    have owner : trackOwner (arrive l seq p s) k ≠ some (otherLink l) := by rw [trackOwner, arrive_claims]; exact ho
    have run : runDisableTrack l p (arrive l seq p s) =
        ⟨.ok, le 2 (cueCount (settleNotices k (arrive l seq p s)) k),
          disableTrackUnit k (settleNotices k (arrive l seq p s))⟩ := by
      rw [runDisableTrack, parseTrack_index, withArgs, onTrack_allowed owner, if_neg (by rw [arrive_tracks]; exact hs)]
    obtain ⟨st, sl, sq⟩ := settleNotices_frame (arrive l seq p s) k
    obtain ⟨ut, uc, um, ul, uq⟩ := disableTrackUnit_frame (settleNotices k (arrive l seq p s)) k
    refine ⟨_, _, answered_of_run s l runDisableTrack rfl hr (List.cons_ne_nil _ _) (by simp [Config.maxPayload]) run
      (ul.trans sl) (uq.trans sq) rfl, ?_, ?_, ?_, ?_⟩
    · rw [ut, getElem_set_eq]
      rfl
    · rw [uc, getElem_set_eq]
    · rw [um, getElem_set_eq]
    · rw [ut, getElem_set_eq, st, arrive_tracks]
      rfl
  case exact =>
    refine track_answered hr ho (run := runDisableTrack) rfl (fun _ => rfl) fun L Q => ?_
    have taken : settleNotices k (withLinks L Q s) = withLinks L Q s := settleNotices_nil (withLinks L Q s) k he hcsu hmark
    rw [withLinks_tracks, if_neg hs, taken]
    dsimp only
    rw [disableTrackUnit_eq]
    rfl

/-! ### PRESET and REBASE (R15, R18) -/

section
variable {s : State} {l : LinkId} {seq : Byte} {k : TrackId} (hr : Ready l seq s) (ho : trackOwner s k ≠ some (otherLink l))
include hr ho

/-- A PRESET is answered OK, with its effects by the state of the track (R15). -/
theorem preset_answered {x : Int} (hx : inRange x = true) {u : State}
    (h : ∀ L Q, presetEffects k x (withLinks L Q s) = withLinks L Q u) :
    Answered (.preset l seq (indexByte k :: leInt 6 x)) l seq (0x23 :: indexByte k :: leInt 6 x) .ok [] s u :=
  answered_of_effect s l runPreset rfl hr (List.cons_ne_nil _ _) (by simp [Config.maxPayload]) fun L Q _ _ => by
    have owner : trackOwner (withLinks L Q s) k ≠ some (otherLink l) := ho
    simp only [runPreset, parseTrackValue_bytes _ k hx, withArgs, onTrack_allowed owner, h]
    rfl

end

/-- Settles O18: the effects of a PRESET in each state of the track. -/
theorem presetSetsThePosition : Obligations.PresetSetsThePosition := by
  unfold Obligations.PresetSetsThePosition
  intro s l seq k x hr ho hx t i p
  refine ⟨fun hs => ?disabled, fun hs => ?fault, fun hs => ?tracking⟩
  case disabled =>
    refine preset_answered hr ho hx fun L Q => ?_
    rw [presetEffects]
    dsimp only
    split
    case h_1 => rfl
    case h_2 h => exact absurd (hs.symm.trans h) (by decide)
    case h_3 h _ => exact absurd hs h
  case fault =>
    refine preset_answered hr ho hx fun L Q => ?_
    rw [presetEffects_fault (withLinks L Q s) k x hs]
    rfl
  case tracking =>
    have enabled : t.state ≠ .disabled ∧ t.state ≠ .fault := by
      rcases hs with h | h <;> rw [h] <;> decide
    refine ⟨presetEffects k x s, preset_answered hr ho hx fun L Q => ?_, presetEffects_tracking s k x enabled.1 enabled.2⟩
    have here := presetEffects_tracking s k x enabled.1 enabled.2
    have there := presetEffects_tracking (withLinks L Q s) k x enabled.1 enabled.2
    rw [Discontinued] at here there
    rw [here, there]
    rfl

/-- The end position that a line has on its track: that of an active DISTANCE pulse (R18). -/
theorem mem_lineEnds (k : TrackId) (u : Line) (e : Int) : e ∈ lineEnds k u ↔ u.cfg.track = k ∧ u.state = .on ∧
    ∃ (o : PulseOrigin) (v : Travel) (x : Option Nat) (f : ProfileId) (b : Bool) (h : Nat),
      u.pulse = some ⟨o, .distance e v x, f, b, h⟩ := by
  unfold lineEnds hasDistancePulse
  by_cases line : u.state = .on ∧ u.cfg.track = k
  · obtain ⟨on, track⟩ := line
    simp only [on, track, beq_self_eq_true, Bool.and_self, Bool.true_and, true_and]
    cases hp : u.pulse with
    | none => simp
    | some p =>
      obtain ⟨o, finish, f, b, h⟩ := p
      cases finish with
      | time t => simp [PulseEnd.mode]
      | distance pos v x =>
        simp [PulseEnd.mode]
        exact ⟨fun h => h.symm, fun h => h.symm⟩
  · have unmet : (u.state == .on && u.cfg.track == k) = false := by
      rw [Bool.eq_false_iff]
      simpa using line
    rw [unmet, Bool.false_and, if_neg Bool.false_ne_true]
    simp only [List.not_mem_nil, false_iff]
    rintro ⟨track, on, -⟩
    exact line ⟨on, track⟩

section
variable (s : State) (k : TrackId) (d : Int)

/-- A REBASE is within the range exactly when every position it moves is (R18). -/
theorem rebaseFits_iff : rebaseFits k d s = true ↔ shiftFits k d s := by
  have mark : (∀ x ∈ if s.marks[k].valid = true then [s.marks[k].last] else [], inRange (x + d) = true) ↔
      (s.marks[k].valid = true → inRange (s.marks[k].last + d) = true) := by
    by_cases h : s.marks[k].valid = true
    · rw [if_pos h, List.forall_mem_singleton, forall_prop_of_true h]
    · rw [if_neg h]
      exact ⟨fun _ h' => absurd h' h, fun _ => nofun⟩
  have lines : (∀ x ∈ allLines.flatMap fun n => lineEnds k s.lines[n], inRange (x + d) = true) ↔
      ∀ (n : LineId) (o : PulseOrigin) (e : Int) (v : Travel) (x : Option Nat) (f : ProfileId) (b : Bool) (h : Nat),
        s.lines[n].cfg.track = k → s.lines[n].state = .on → s.lines[n].pulse = some ⟨o, .distance e v x, f, b, h⟩ →
        inRange (e + d) = true := by
    simp only [List.mem_flatMap, mem_allLines, true_and, mem_lineEnds]
    constructor
    · exact fun h n o e v x f b w track on pulse => h e ⟨n, track, on, o, v, x, f, b, w, pulse⟩
    · rintro h e ⟨n, track, on, o, v, x, f, b, w, pulse⟩
      exact h n o e v x f b w track on pulse
  have cues : (∀ x ∈ s.csu.schedules[k].flatMap fun c => [c.nominal, c.effective], inRange (x + d) = true) ↔
      ∀ c ∈ s.csu.schedules[k], inRange (c.nominal + d) = true ∧ inRange (c.effective + d) = true := by
    simp only [List.mem_flatMap, List.mem_cons, List.not_mem_nil, or_false]
    grind
  rw [rebaseFits, List.all_eq_true, rebasePositions, shiftFits, ← mark, ← lines, ← cues]
  simp only [List.cons_append, List.forall_mem_cons, List.forall_mem_append, and_assoc]

/-- The shifts of a REBASE (R18, R58, R93). -/
theorem rebaseShift_eq : rebaseShift k d s = shifted k d s := by
  have mark : shiftMark d s.marks[k] = { s.marks[k] with last := if s.marks[k].valid then s.marks[k].last + d else s.marks[k].last } := by
    unfold shiftMark
    split <;> rfl
  unfold rebaseShift
  dsimp only
  rw [foldl_setLine (shiftLine k d) allLines nodup_allLines]
  simp only [mem_allLines, if_true]
  rw [shifted, ← mark]
  rfl

end

section
variable {s : State} {l : LinkId} {seq : Byte} {k : TrackId} {d : Int} (hr : Ready l seq s)
  (ho : trackOwner s k ≠ some (otherLink l)) (hd : inRange d = true)
include hr ho hd

/-- A REBASE is judged and made on the state in which the notices of its track have been taken (R18, log 4). -/
theorem rebase_answered {v : State} (hv : ∃ L Q,
  settleAllNotices k (arrive l seq (0x25 :: indexByte k :: leInt 6 d) s) = withLinks L Q v) :
    let i := Instr.rebase l seq (indexByte k :: leInt 6 d)
    let p : List Byte := 0x25 :: indexByte k :: leInt 6 d
    (¬shiftFits k d v → Answered i l seq p .outOfRange [] s v) ∧ (shiftFits k d v → Answered i l seq p .ok [] s (shifted k d v)) := by
  intro i p
  obtain ⟨L, Q, hv⟩ := hv
  obtain ⟨-, -, links, queues⟩ := settleAllNotices_taken (arrive l seq p s) k
  have owner : trackOwner (arrive l seq p s) k ≠ some (otherLink l) := by
    rw [trackOwner, arrive_claims]
    exact ho
  have run : runRebase l p (arrive l seq p s) =
      if rebaseFits k d (withLinks L Q v) then done (rebaseShift k d (withLinks L Q v)) else refuse .outOfRange (withLinks L Q v) := by
    simp only [runRebase, p, parseTrackValue_bytes _ k hd, withArgs, onTrack_allowed owner, hv]
  have fits : rebaseFits k d (withLinks L Q v) = true ↔ shiftFits k d v := rebaseFits_iff (withLinks L Q v) k d
  rw [hv] at links queues
  have size : p.length ≤ Config.maxPayload := by simp [p, Config.maxPayload]
  refine ⟨fun h => ?_, fun h => ?_⟩
  · rw [if_neg (by rw [fits]; exact h)] at run
    exact answered_of_run s l runRebase rfl hr (List.cons_ne_nil _ _) size run links queues rfl
  · rw [if_pos (fits.2 h), rebaseShift_eq] at run
    exact answered_of_run s l runRebase rfl hr (List.cons_ne_nil _ _) size run links queues rfl

end

/-- Settles O20: the notices of the track are taken first; then every position is checked, and shifted. -/
theorem rebaseShiftsEveryPosition : Obligations.RebaseShiftsEveryPosition := by
  unfold Obligations.RebaseShiftsEveryPosition
  intro s l seq k d hr ho hd i p made
  have arrived := eq_withLinks (arrive_device s l seq p)
  refine ⟨fun ⟨hev, hcsu, hmark, hline⟩ => ?_, arrive l seq p s, arrive_device s l seq p, fun m => ?_, ?_⟩
  · have quiet := settleAllNotices_nil (withLinks (arrive l seq p s).links (arrive l seq p s).queues s) k hev hcsu hmark hline
    rw [← arrived] at quiet
    exact rebase_answered hr ho hd ⟨_, _, quiet.trans arrived⟩
  · obtain ⟨own, other⟩ := arrive_states s l (payload := p) hr
    rcases eq_or_other l m with rfl | rfl
    · rw [heard, linkOn_setLink_same]
      exact own
    · rw [heard, linkOn_setLink_other]
      exact other
  · obtain ⟨taken, tracks, links, queues⟩ := settleAllNotices_taken (arrive l seq p s) k
    exact ⟨tracks.trans (arrive_tracks s l seq p), taken, rebase_answered hr ho hd ⟨_, _, eq_withLinks rfl⟩⟩

/-! ### QUERY_TRACK and CLEAR_TRACK_FAULT (R13, R21) -/

/-- Settles O21: the results of Table 11-10. -/
theorem queryTrackAnswersTheTable : Obligations.QueryTrackAnswersTheTable := by
  unfold Obligations.QueryTrackAnswersTheTable
  intro s l seq k hr t
  refine answered_of_effect s l runQueryTrack rfl hr (List.cons_ne_nil _ _) (by simp [Config.maxPayload]) fun L Q _ _ => ?_
  rw [runQueryTrack, parseTrack_index]
  rfl

/-- The persistence conditions of Table 1-3. -/
theorem persists_iff (t : Track) : persists t = true ↔
    t.cause = .sample ∧ t.framingValid = false ∨ t.cause = .quad ∧ t.cfg.errorLimit ≤ t.lastIllegal ∨
      t.cause = .range ∧ (t.clamp = some .high ∧ t.pos = 140737488355327 ∨ t.clamp = some .low ∧ t.pos = -140737488355328) ∨
      t.cause = .overspeed ∧ t.cfg.overspeed ≠ 0 ∧ (t.cfg.overspeed : Int) < |t.vel| := by
  unfold persists
  cases hc : t.cause with
  | sample | quad => simp
  | range =>
    cases hl : t.clamp with
    | none => simp
    | some limit => cases limit <;> simp [RangeLimit.pos, Config.maxPos, Config.minPos]
  | overspeed => simp [isOverspeed_iff]
  | absent | settled | discontinuity => simp

/-- Settles O22: the answer by the state of the track and the persistence of its cause. -/
theorem clearTrackFaultTestsPersistence : Obligations.ClearTrackFaultTestsPersistence := by
  unfold Obligations.ClearTrackFaultTestsPersistence
  intro s l seq k hr ho t i p holds
  have persistent : persists t = true ↔ holds := persists_iff t
  refine ⟨fun hs => ?disabled, fun hs => ?tracking, fun hs hh => ?present, fun hs hh => ?cleared⟩ <;>
    refine track_answered hr ho (run := runClearTrackFault) rfl (fun _ => rfl) fun L Q => ?_
  case disabled =>
    rw [withLinks_tracks, hs]
    rfl
  case tracking =>
    rcases hs with hs | hs <;>
    · rw [withLinks_tracks, hs]
      rfl
  case present =>
    rw [withLinks_tracks, hs]
    dsimp only
    rw [if_pos (persistent.2 hh)]
  case cleared =>
    rw [withLinks_tracks, hs]
    dsimp only
    rw [if_neg (by rw [persistent]; exact hh), done, clearTrackFaultUnit, clearedTrack, startSettle_eq]
    rfl

end Sys2Proof.Machine
end

section
/-! SUPPORT. The statements about the commands of the cue schedules: ADD_CUE, CANCEL_CUE, FLUSH and the queries (03). -/

namespace Sys2Proof.Machine

-- One proof at a time: proofs elaborated side by side would hold a thread each, and its stack.
set_option Elab.async false

/-! ### Owners -/

/-- A line's owner check passes for a link that may command it (R161). -/
theorem onLine_allowed {s : State} {l : LinkId} {n : LineId} (h : lineOwner s n ≠ some (otherLink l)) (run : Answer) :
    onLine l n s run = run := by
  simp [onLine, heldByOther_eq, h]

/-! ### ADD_CUE (R49, R50, R51) -/

theorem inRange_eq_false {x : Int} : inRange x = false ↔ x < -140737488355328 ∨ 140737488355327 < x := by
  rw [← Bool.not_eq_true, inRange_iff]
  omega

/-- The arguments of a fitting ADD_CUE fit a payload. -/
theorem length_addCueArgs_le (a : AddCueArgs) : (addCueArgs a).length ≤ 27 := by
  obtain ⟨k, n, id, nominal, notify, profile, width, tolerance, repetition⟩ := a
  cases profile <;> cases width <;> cases tolerance <;> cases repetition <;> simp [addCueArgs]

section
variable (s : State) (k : TrackId)

/-- The checks of R50, in their order. -/
theorem admission_eq (a : AddCueArgs) :
    let t := s.tracks[a.track]
    let cs := s.csu.schedules[a.track]
    let e := effectiveAt s a.track a.line a.nominal
    admission s a =
      if s.lines[a.line].cfg.track ≠ a.track then some .wrongTrack
      else if t.state = .disabled then some .trackDisabled
      else if cs.any (fun c => c.key = .host a.id) then some .idInUse
      else if e < -140737488355328 ∨ 140737488355327 < e then some .outOfRange
      else if t.state ≠ .fault ∧ (if t.cfg.travel = .forward then e ≤ s.csu.taken[a.track] else s.csu.taken[a.track] ≤ e) then
        some .behind
      else if freeCount s = 0 then some .poolFull
      else if t.cfg.scheduleLimit ≤ cs.length then some .trackFull
      else none := by
  intro t cs e
  have effective : a.effective s = e := effectiveOf_eq s a.track a.line a.nominal
  have outside : (!inRange e) = true ↔ e < -140737488355328 ∨ 140737488355327 < e := by
    rw [Bool.not_eq_true', inRange_eq_false]
  have reached : alreadyReached s a.track e = true ↔
      if t.cfg.travel = .forward then e ≤ s.csu.taken[a.track] else s.csu.taken[a.track] ≤ e := by
    rw [alreadyReached, reaches_eq, ahead, Bool.not_eq_true']
    split <;> simp
  by_cases hd : t.state = .disabled
  · rw [admission, if_pos hd]
    rw [if_pos hd]
  · have behind : (checksAhead s a.track && alreadyReached s a.track e) = true ↔
        t.state ≠ .fault ∧ if t.cfg.travel = .forward then e ≤ s.csu.taken[a.track] else s.csu.taken[a.track] ≤ e := by
      rw [Bool.and_eq_true, reached]
      have tracking : checksAhead s a.track = (t.state != .fault) := isTracking_eq s a.track hd
      rw [tracking, bne_iff_ne]
    rw [admission, effective]
    simp only [outside, behind]
    rfl

/-- An insertion reads and changes the CSU and the tracks alone. -/
theorem insertRecord_withLinks (c : Cue) (L : PerLink Link) (Q : PerLink Queue) :
    insertRecord k c (withLinks L Q s) = withLinks L Q (insertRecord k c s) := by
  have ready : readyStamp (withLinks L Q s) = withLinks L Q (readyStamp s) := by
    unfold readyStamp
    rw [withLinks_csu]
    split <;> rfl
  rw [insertRecord, ready]
  rfl

/-- An insertion takes one record from the pool (R41). -/
theorem freeCount_insertRecord (c : Cue) : freeCount (insertRecord k c s) = freeCount s - 1 := by
  have count := cueCount_insertRecord s k c
  have one : pendingCues (insertRecord k c s) = pendingCues s + 1 := by
    simp only [pendingCues, count]
    fin_cases k <;> simp <;> omega
  rw [freeCount, one, freeCount]
  omega

end

/-- Settles O23: the checks of R50 in order, then the insertion of the record. -/
theorem addCueIsJudgedAndAdmitted : Obligations.AddCueIsJudgedAndAdmitted := by
  unfold Obligations.AddCueIsJudgedAndAdmitted
  intro s l seq a hr fits hk hn hev t cs e i p refusal
  have judged : admission s a = refusal := admission_eq s a
  have parsed : parseAddCue p = .ok a := parseAddCue_iff.2 ⟨fits, rfl⟩
  have size : p.length ≤ Config.maxPayload := by
    have := length_addCueArgs_le a
    simp only [p, List.length_cons, Config.maxPayload]
    omega
  have run : ∀ L Q, runAddCue l p (withLinks L Q s) = match admission s a with
      | some status => refuse status (withLinks L Q s)
      | none => ⟨.ok, le 2 (freeCount (insertRecord a.track (admittedCue s a) (withLinks L Q s))),
          insertRecord a.track (admittedCue s a) (withLinks L Q s)⟩ := fun L Q => by
    have trackOwned : trackOwner (withLinks L Q s) a.track ≠ some (otherLink l) := hk
    have lineOwned : lineOwner (withLinks L Q s) a.line ≠ some (otherLink l) := hn
    simp only [runAddCue, parsed, withArgs, onTrack_allowed trackOwned, onLine_allowed lineOwned,
      finishEvaluation_none (withLinks L Q s) hev]
    rfl
  refine ⟨fun st h => ?_, fun h => ?_⟩ <;> rw [← judged] at h
  · refine answered_of_effect s l runAddCue rfl hr (List.cons_ne_nil _ _) size fun L Q _ _ => ?_
    rw [run, h]
    rfl
  · obtain ⟨before, after, split, place, inserts⟩ := insertRecord_inserted s a.track (admittedCue s a)
    have effective : (admittedCue s a).effective = e := effectiveOf_eq s a.track a.line a.nominal
    rw [effective] at place
    refine ⟨before, after, split, place, ?_⟩
    rw [← effective]
    refine answered_of_effect s l runAddCue rfl hr (List.cons_ne_nil _ _) size fun L Q _ _ => ?_
    rw [run, h, insertRecord_withLinks, withLinks_freeCount, freeCount_insertRecord, inserts]
    rfl

/-! ### CANCEL_CUE and FLUSH (R55, R56, R57) -/

theorem isHost_iff (c : Cue) (id : BitVec 16) : c.isHost id = true ↔ c.key = .host id := beq_iff_eq

/-- The first cue of a schedule that satisfies a condition is the one taken out. -/
theorem eraseP_first {q : Cue → Bool} {before after : List Cue} {c : Cue} (hc : q c = true) (hb : ∀ d ∈ before, ¬q d = true) :
    (before ++ c :: after).eraseP q = before ++ after := by
  rw [List.eraseP_append_right _ hb, List.eraseP_cons_of_pos hc]

/-- Settles O24: the cue with the id is found nearest the head; a flush keeps what it does not name, in order. -/
theorem cancelAndFlushRemoveCues : Obligations.CancelAndFlushRemoveCues := by
  unfold Obligations.CancelAndFlushRemoveCues
  intro s l seq k hr ho hev cs left
  have owner : ∀ L Q, trackOwner (withLinks L Q s) k ≠ some (otherLink l) := fun _ _ => ho
  have quiet : ∀ L Q, finishEvaluation (withLinks L Q s) = withLinks L Q s := fun L Q => finishEvaluation_none _ hev
  have flush : ∀ n : Option LineId, Answered (.flush l seq (indexByte k :: (n.map indexByte).toList)) l seq
      (0x32 :: indexByte k :: (n.map indexByte).toList) .ok (le 2 (bulkCount k (flushKeeps n) s)) s
      (left (cs.filter (flushKeeps n))) := fun n => by
    have parsed : parseFlush (0x32 :: indexByte k :: (n.map indexByte).toList) = .ok (k, n) := parseFlush_iff.2 rfl
    refine answered_of_effect s l runFlush rfl hr (List.cons_ne_nil _ _) (by cases n <;> simp [Config.maxPayload]) fun L Q _ _ => ?_
    simp only [runFlush, parsed, withArgs, onTrack_allowed (owner L Q), quiet]
    rfl
  refine ⟨fun id => ⟨fun h => ?missing, fun before c after hcs hc hb => ?found⟩, ?whole, fun n => ?line⟩
  case missing =>
    refine answered_of_effect s l runCancelCue rfl hr (List.cons_ne_nil _ _) (by simp [Config.maxPayload]) fun L Q _ _ => ?_
    have parsed : parseCancelCue (0x31 :: indexByte k :: le 2 id.toNat) = .ok (k, id) := parseCancelCue_iff.2 rfl
    have absent : ¬(cs.any fun c => c.isHost id) = true := by
      simpa only [List.any_eq_true, isHost_iff, not_exists, not_and] using h
    simp only [runCancelCue, parsed, withArgs, onTrack_allowed (owner L Q), quiet, withLinks_csu]
    rw [if_neg absent]
    rfl
  case found =>
    refine answered_of_effect s l runCancelCue rfl hr (List.cons_ne_nil _ _) (by simp [Config.maxPayload]) fun L Q _ _ => ?_
    have parsed : parseCancelCue (0x31 :: indexByte k :: le 2 id.toNat) = .ok (k, id) := parseCancelCue_iff.2 rfl
    have isHost : c.isHost id = true := (isHost_iff c id).2 hc
    have present : (cs.any fun c => c.isHost id) = true := by
      rw [List.any_eq_true]
      exact ⟨c, by rw [hcs]; simp, isHost⟩
    have erased : (cs.eraseP fun c => c.isHost id) = before ++ after := by
      rw [hcs]
      exact eraseP_first isHost fun d hd => by rw [isHost_iff]; exact hb d hd
    simp only [runCancelCue, parsed, withArgs, onTrack_allowed (owner L Q), quiet, withLinks_csu]
    rw [if_pos present, erased]
    rfl
  case whole =>
    have all : bulkCount k (flushKeeps none) s = cs.length := by simp [bulkCount, flushKeeps, cs]
    have kept : cs.filter (flushKeeps none) = [] := by simp [flushKeeps]
    have := flush none
    rw [all, kept] at this
    exact this
  case line =>
    have named : bulkCount k (flushKeeps (some n)) s = (cs.filter fun c => c.line = n).length := by
      simp [bulkCount, flushKeeps, otherLineThan, cs, bne, beq_eq_decide]
    have kept : cs.filter (flushKeeps (some n)) = cs.filter fun c => c.line ≠ n :=
      List.filter_congr fun c _ => by
        rw [Bool.eq_iff_iff, decide_eq_true_iff]
        exact bne_iff_ne
    have := flush (some n)
    rw [named, kept] at this
    exact this

/-! ### The queries (R59, R60, R61) -/

theorem findCue_none {key : CueKey} {cs : List Cue} (i : Nat) (h : ∀ c ∈ cs, c.key ≠ key) : findCue key i cs = none := by
  induction cs generalizing i with
  | nil => rfl
  | cons c cs ih =>
    rw [findCue, if_neg (h c (List.mem_cons_self ..))]
    exact ih _ fun d hd => h d (List.mem_cons_of_mem _ hd)

/-- The cue with a key that is nearest the head is found with its place (R59). -/
theorem findCue_first {c : Cue} {before after : List Cue} (i : Nat) (h : ∀ d ∈ before, d.key ≠ c.key) :
    findCue c.key i (before ++ c :: after) = some (c, i + before.length) := by
  induction before generalizing i with
  | nil => rw [List.nil_append, findCue, if_pos rfl]; rfl
  | cons d before ih =>
    rw [List.cons_append, findCue, if_neg (h d (List.mem_cons_self ..)), ih _ fun e he => h e (List.mem_cons_of_mem _ he),
      List.length_cons, Nat.add_assoc, Nat.add_comm 1]

/-- Settles O25: each query reads the schedules as they are. -/
theorem scheduleQueriesChangeNothing : Obligations.ScheduleQueriesChangeNothing := by
  unfold Obligations.ScheduleQueriesChangeNothing
  intro s l seq hr hev
  have quiet : ∀ L Q, finishEvaluation (withLinks L Q s) = withLinks L Q s := fun L Q => finishEvaluation_none _ hev
  refine ⟨?pool, fun k => ⟨fun start n hstart hlo hhi => ?schedule, fun key => ⟨fun h => ?missing, fun before c after hcs hc hb => ?found⟩⟩⟩
  case pool =>
    have finRange : List.finRange 16 = allLines := by decide
    refine answered_of_effect s l runQueryPool rfl hr (List.cons_ne_nil _ _) (by simp [Config.maxPayload]) fun L Q _ _ => ?_
    rw [runQueryPool, parseNone_code, withArgs, quiet, finRange]
    rfl
  case schedule =>
    have parsed : parseQuerySchedule (0x34 :: (indexByte k :: le 2 start ++ [BitVec.ofNat 8 n])) = .ok (k, start, n) :=
      parseQuerySchedule_iff.2 ⟨⟨hstart, hlo, hhi⟩, rfl⟩
    refine answered_of_effect s l runQuerySchedule rfl hr (List.cons_ne_nil _ _) (by simp [Config.maxPayload]) fun L Q _ _ => ?_
    simp only [runQuerySchedule, parsed, withArgs, quiet]
    rfl
  case missing =>
    have parsed : parseQueryCue (0x33 :: indexByte k :: key.origin :: key.bytes) = .ok (k, key) := parseQueryCue_iff.2 rfl
    refine answered_of_effect s l runQueryCue rfl hr (List.cons_ne_nil _ _) (by simp [key_bytes, Config.maxPayload]) fun L Q _ _ => ?_
    simp only [runQueryCue, parsed, withArgs, quiet, withLinks_csu, findCue_none 0 h]
    rfl
  case found =>
    subst hc
    have parsed : parseQueryCue (0x33 :: indexByte k :: c.key.origin :: c.key.bytes) = .ok (k, c.key) := parseQueryCue_iff.2 rfl
    refine answered_of_effect s l runQueryCue rfl hr (List.cons_ne_nil _ _) (by simp [key_bytes, Config.maxPayload]) fun L Q _ _ => ?_
    simp only [runQueryCue, parsed, withArgs, quiet, withLinks_csu, hcs, findCue_first 0 hb, Nat.zero_add]
    rfl

end Sys2Proof.Machine
end

section
/-! SUPPORT. The statements about evaluation events and firing requests: the loop of an event does not depend on its bound,
  a resolution
changes the schedules alone, and the line answers by its state (04, 06). -/

namespace Sys2Proof.Machine

-- One proof at a time: proofs elaborated side by side would hold a thread each, and its stack.
set_option Elab.async false

section
variable (s : State) (k : TrackId)

/-! ### What a resolution leaves of the CSU -/

/-- An insertion changes the schedules and the stamps of the CSU alone (R42). -/
theorem insertRecord_rest (c : Cue) :
    (insertRecord k c s).csu.taken = s.csu.taken ∧ (insertRecord k c s).csu.modes = s.csu.modes ∧
      (insertRecord k c s).csu.evaluation = s.csu.evaluation := by
  simp only [insertRecord, readyStamp]
  split <;> exact ⟨rfl, rfl, rfl⟩

/-- A resolution changes the schedules and the stamps of the CSU alone (R63, R70). -/
theorem completeResolution_rest (e : EvalInput) (c : Cue) (rest : List Cue) (r : CueResult) :
    let t := completeResolution k e c rest r s
    t.csu.taken = s.csu.taken ∧ t.csu.modes = s.csu.modes ∧ t.csu.evaluation = s.csu.evaluation := by
  simp only [completeResolution, raiseOutcome_csu]
  cases afterResolution e.travel c with
  | reinserted c' n => exact insertRecord_rest _ k c'
  | rangeEnd n => exact ⟨rfl, rfl, rfl⟩
  | freed => exact ⟨rfl, rfl, rfl⟩

/-- An insertion does not look at the event in progress. -/
theorem insertRecord_setEvaluation (v : Option Evaluation) (c : Cue) :
    insertRecord k c (setEvaluation v s) = setEvaluation v (insertRecord k c s) := by
  have ready : readyStamp (setEvaluation v s) = setEvaluation v (readyStamp s) := by
    unfold readyStamp
    rw [setEvaluation_csu]
    split <;> rfl
  rw [insertRecord, ready]
  rfl

/-- A resolution does not look at the event in progress. -/
theorem completeResolution_setEvaluation (v : Option Evaluation) (e : EvalInput) (c : Cue) (rest : List Cue) (r : CueResult) :
    completeResolution k e c rest r (setEvaluation v s) = setEvaluation v (completeResolution k e c rest r s) := by
  simp only [completeResolution, raiseOutcome_eq]
  cases afterResolution e.travel c with
  | reinserted c' n =>
    rw [← told_setEvaluation]
    exact congrArg (told _ _) (insertRecord_setEvaluation (setSchedule k rest s) k v c')
  | rangeEnd n => rw [← told_setEvaluation]; rfl
  | freed => rw [← told_setEvaluation]; rfl

/-! ### The loop of an evaluation event (R62, R71) -/

/-- A reached head that is decided by the CSU leaves, and the loop goes on. -/
theorem resolveHeads_decided {fuel : Nat} {e : EvalInput} {c : Cue} {tail : List Cue} {r : CueResult}
    (hs : s.csu.schedules[k] = c :: tail) (ha : ahead e.travel c.effective e.pos = false) (hd : decided s e c = some r) :
    resolveHeads (fuel + 1) k e s = resolveHeads fuel k e (completeResolution k e c tail r s) := by
  simp only [resolveHeads, hs, reaches_eq, ha, scheduleDecision_eq, hd, Bool.not_false, if_true]

/-- A reached head that is not decided by the CSU is asked about. -/
theorem resolveHeads_asked {fuel : Nat} {e : EvalInput} {c : Cue} {tail : List Cue} (hs : s.csu.schedules[k] = c :: tail)
    (ha : ahead e.travel c.effective e.pos = false) (hd : decided s e c = none) :
    resolveHeads (fuel + 1) k e s = setEvaluation (some ⟨k, e, requestFor s c⟩) s := by
  simp only [resolveHeads, hs, reaches_eq, ha, scheduleDecision_eq, hd, Bool.not_false, if_true]

/-- Any bound above the resolutions left gives the same event. -/
theorem resolveHeads_fuel {e : EvalInput} {m n : Nat} (hm : load s.csu.schedules[k] < m) (hn : load s.csu.schedules[k] < n) :
    resolveHeads m k e s = resolveHeads n k e s := by
  induction m generalizing s n with
  | zero => omega
  | succ m ih =>
    obtain ⟨n, rfl⟩ : ∃ n', n = n' + 1 := ⟨n - 1, by omega⟩
    by_cases stops : headAhead k e s
    · rw [resolveHeads_stop s k _ e stops, resolveHeads_stop s k _ e stops]
    · simp only [headAhead, not_forall, Bool.not_eq_true] at stops
      obtain ⟨c, head, reached⟩ := stops
      obtain ⟨tail, hs⟩ : ∃ tail, s.csu.schedules[k] = c :: tail := List.head?_eq_some_iff.1 head
      cases hd : decided s e c with
      | none => rw [resolveHeads_asked s k hs reached hd, resolveHeads_asked s k hs reached hd]
      | some r =>
        have less := load_completeResolution s k e c tail r
        rw [hs] at hm hn
        rw [resolveHeads_decided s k hs reached hd, resolveHeads_decided s k hs reached hd]
        exact ih _ (by omega) (by omega)

/-- The loop of an event sets the event in progress and does not look at it. -/
theorem resolveHeads_setEvaluation (v : Option Evaluation) (fuel : Nat) (e : EvalInput) :
    resolveHeads fuel k e (setEvaluation v s) = resolveHeads fuel k e s := by
  induction fuel generalizing s with
  | zero => rfl
  | succ fuel ih =>
    by_cases stops : headAhead k e s
    · rw [resolveHeads_stop s k _ e stops, resolveHeads_stop (setEvaluation v s) k _ e stops]
      rfl
    · simp only [headAhead, not_forall, Bool.not_eq_true] at stops
      obtain ⟨c, head, reached⟩ := stops
      obtain ⟨tail, hs⟩ : ∃ tail, s.csu.schedules[k] = c :: tail := List.head?_eq_some_iff.1 head
      have hs' : (setEvaluation v s).csu.schedules[k] = c :: tail := hs
      cases hd : decided s e c with
      | none =>
        rw [resolveHeads_asked s k hs reached hd, resolveHeads_asked _ k hs' reached hd]
        rfl
      | some r =>
        rw [resolveHeads_decided s k hs reached hd, resolveHeads_decided _ k hs' reached hd,
          completeResolution_setEvaluation, ih]

theorem runEvaluation_setEvaluation (v : Option Evaluation) (e : EvalInput) :
    runEvaluation k e (setEvaluation v s) = runEvaluation k e s := resolveHeads_setEvaluation s k v _ e

/-- An event whose head lies ahead, or is missing, resolves nothing (R62). -/
theorem runEvaluation_stop {e : EvalInput} (h : headAhead k e s) (hev : s.csu.evaluation = none) : runEvaluation k e s = s := by
  rw [runEvaluation, resolveHeads_stop s k _ e h, setEvaluation_none s hev]

/-- An event that decides the head goes on as though begun on the state that the resolution leaves (R63, R71). -/
theorem runEvaluation_decided {e : EvalInput} {c : Cue} {tail : List Cue} {r : CueResult} (hs : s.csu.schedules[k] = c :: tail)
    (ha : ahead e.travel c.effective e.pos = false) (hd : decided s e c = some r) :
    runEvaluation k e s = runEvaluation k e (completeResolution k e c tail r s) := by
  have less := load_completeResolution s k e c tail r
  rw [runEvaluation, firingsLeft_eq, hs, resolveHeads_decided s k hs ha hd, runEvaluation, firingsLeft_eq]
  exact resolveHeads_fuel _ k (by omega) (by omega)

/-- An event that does not decide the head asks its line (R68). -/
theorem runEvaluation_asked {e : EvalInput} {c : Cue} {tail : List Cue} (hs : s.csu.schedules[k] = c :: tail)
    (ha : ahead e.travel c.effective e.pos = false) (hd : decided s e c = none) :
    runEvaluation k e s = setEvaluation (some ⟨k, e, requestFor s c⟩) s := by
  rw [runEvaluation, firingsLeft_eq, resolveHeads_asked s k hs ha hd]

/-- The firing request of a cue (R66, R68). -/
theorem requestFor_eq (c : Cue) :
    requestFor s c = ⟨c.line, c.profile.getD s.lines[c.line].cfg.profile, c.profile.isSome, c.width⟩ := by
  unfold requestFor profileUsed
  cases c.profile <;> rfl

/-! ### The change at the front of the notices -/

/-- An evaluation event takes the change at the front; a FROZEN schedule is not evaluated (R47, R62). -/
theorem evaluationEvent_taken {e : EvalInput} {rest : List CsuNotice} (h : s.transit.toCsu[k] = .change e :: rest)
    (hev : s.csu.evaluation = none) :
    evaluationEvent k s = match s.csu.modes[k] with
      | .evaluating => runEvaluation k e (taken s k e rest)
      | .frozen => taken s k e rest := by
  simp only [evaluationEvent, h, finishEvaluation_none s hev]
  rfl

/-- A change put in front of the notices and taken again gives the evaluation of the schedule as it stands. -/
theorem evaluationEvent_inFront {e : EvalInput} (hev : s.csu.evaluation = none) (hm : s.csu.modes[k] = .evaluating)
    (ht : s.csu.taken[k] = e.pos) : evaluationEvent k (changeInFront k e s) = runEvaluation k e s := by
  have front : (changeInFront k e s).transit.toCsu[k] = .change e :: s.transit.toCsu[k] := by simp [changeInFront]
  have back : taken (changeInFront k e s) k e s.transit.toCsu[k] = s := by
    have sameTaken := set_getElem_same s.csu.taken k
    have sameNotices : (s.transit.toCsu.set k (.change e :: s.transit.toCsu[k])).set k s.transit.toCsu[k] = s.transit.toCsu := by
      rw [Vector.set_set, set_getElem_same]
    rw [ht] at sameTaken
    simp only [taken, changeInFront, sameTaken, sameNotices]
  have mode : (changeInFront k e s).csu.modes[k] = .evaluating := hm
  rw [evaluationEvent_taken (changeInFront k e s) k front hev, mode, back]

/-- The state that a resolution leaves goes on as though the same change were taken anew. -/
theorem runEvaluation_again {e : EvalInput} {c : Cue} {tail : List Cue} {r : CueResult} (hev : s.csu.evaluation = none)
    (hm : s.csu.modes[k] = .evaluating) (ht : s.csu.taken[k] = e.pos) :
    let t := completeResolution k e c tail r s
    runEvaluation k e t = evaluationEvent k (changeInFront k e t) ∧ (headAhead k e t → runEvaluation k e t = t) := by
  intro t
  obtain ⟨sameTaken, sameModes, sameEvaluation⟩ := completeResolution_rest s k e c tail r
  have quiet : t.csu.evaluation = none := sameEvaluation.trans hev
  refine ⟨(evaluationEvent_inFront t k quiet ?_ ?_).symm, fun h => runEvaluation_stop t k h quiet⟩
  · rw [sameModes, hm]
  · rw [sameTaken, ht]

end

/-- Settles O26: the loop of the event, one decision at a time. -/
theorem evaluationEventDecides : Obligations.EvaluationEventDecides := by
  unfold Obligations.EvaluationEventDecides
  intro s k e rest hfront hev v i
  have run : exec i s = .next (match s.csu.modes[k] with
      | .evaluating => runEvaluation k e v
      | .frozen => v) := congrArg _ (evaluationEvent_taken s k hfront hev)
  refine ⟨fun frozen => ?_, fun stops => ?_, fun c tail evaluating hs reached => ?_⟩
  · rw [run, frozen]
  · have stay : runEvaluation k e v = v := runEvaluation_stop v k stops hev
    rw [run, stay]
    cases s.csu.modes[k] <;> rfl
  · rw [evaluating] at run
    refine ⟨fun asked => ?_, fun r hd => ⟨fun single stops => ?_, fun sense => ?_⟩⟩
    · rw [run]
      dsimp only
      rw [runEvaluation_asked v k hs reached asked, requestFor_eq]
      rfl
    · have next : headAhead k e (completeResolution k e c tail r v) := by
        rw [completeResolution_single v k e c tail r single, headAhead, told_csu, scheduled_get]
        exact stops
      rw [run]
      dsimp only
      rw [runEvaluation_decided v k hs reached hd, (runEvaluation_again v k hev evaluating (by simp [v, taken])).2 next,
        completeResolution_single v k e c tail r single]
    · obtain ⟨again, stay⟩ := runEvaluation_again v k (e := e) (c := c) (tail := tail) (r := r) hev evaluating
        (by simp [v, taken])
      have goes : exec i s = .next (runEvaluation k e (completeResolution k e c tail r v)) := by
        rw [run]
        dsimp only
        rw [runEvaluation_decided v k hs reached hd]
      refine ⟨_, completeResolution_resolved v k e c tail r sense, goes.trans (congrArg _ again), fun next => ?_⟩
      rw [goes, stay next]

/-- A renumbering changes stamps only (R42). -/
theorem effective_renumberFrom (n : Nat) (cs : List Cue) : (renumberFrom n cs).map Cue.effective = cs.map Cue.effective := by
  induction cs generalizing n with
  | nil => rfl
  | cons c cs ih => rw [renumberFrom, List.map_cons, ih]; rfl

theorem effective_stampReady (s : State) (k : TrackId) :
    (stampReady s).csu.schedules[k].map Cue.effective = s.csu.schedules[k].map Cue.effective := by
  rw [← readyStamp_eq, readyStamp]
  split
  · simp only [renumber, setStamp_csu, setSchedule_csu]
    fin_cases k <;> simp [effective_renumberFrom]
  · rfl

/-- Settles O28: the cases of R70, for an event that reaches no further cue. -/
theorem repeatingCueIsReinserted : Obligations.RepeatingCueIsReinserted := by
  unfold Obligations.RepeatingCueIsReinserted
  intro s k e rest c tail pitch m r hfront hev evaluating hs reached hrep next hd sense d fits v w i
  have resolved := completeResolution_resolved v k e c tail r sense
  have ends : headAhead k e (completeResolution k e c tail r v) → exec i s = .next (completeResolution k e c tail r v) := fun h => by
    have run : exec i s = .next (evaluationEvent k s) := rfl
    rw [run, evaluationEvent_taken s k hfront hev, evaluating]
    dsimp only
    rw [runEvaluation_decided v k hs reached hd, (runEvaluation_again v k hev evaluating (by simp [v, taken])).2 h]
  have freed : ∀ {n b}, completeResolution k e c tail r v = told (outcomeAt k e c r n b) c.notify (scheduled k tail v) →
      exec i s = .next (told (outcomeAt k e c r n b) c.notify (scheduled k tail v)) := fun h => by
    rw [ends, h]
    rw [headAhead, h, told_csu, scheduled_get]
    exact next
  simp only [Resolved, hrep] at resolved
  refine ⟨fun left inside further => ?_, fun left outside => ?_, fun last => ?_⟩
  · rw [if_neg (Nat.pos_iff_ne_zero.1 left), if_pos inside] at resolved
    obtain ⟨before, after, split, place, eq⟩ := resolved
    refine ⟨before, after, split, place, ?_⟩
    rw [ends, eq]
    rw [headAhead, eq, told_csu]
    intro h hh
    have heads : (tail.head?.map Cue.effective) = (before ++ after).head?.map Cue.effective := by
      rw [← split, ← List.head?_map, ← List.head?_map, effective_stampReady, scheduled_get]
    simp only [inserted, Fin.getElem_fin, Vector.getElem_set_self] at hh
    cases before with
    | nil =>
      obtain rfl : _ = h := Option.some.inj hh
      exact further
    | cons b before =>
      obtain rfl : b = h := Option.some.inj hh
      obtain ⟨x, hx, same⟩ := Option.map_eq_some_iff.1 heads
      rw [← same]
      exact next x hx
  · rw [if_neg (Nat.pos_iff_ne_zero.1 left), if_neg outside] at resolved
    exact freed resolved
  · rw [if_pos last] at resolved
    exact freed resolved

/-! ### The line's answer (Table 4-3) -/

/-- The line that is asked answers, and its answer resolves the head of the schedule (R63, R69). -/
theorem firingRequest_answered {s : State} {k : TrackId} {e : EvalInput} {r : FiringRequest} {c : Cue} {tail : List Cue}
    {a : CueResult} {w : State} (hev : s.csu.evaluation = some ⟨k, e, r⟩) (hs : s.csu.schedules[k] = c :: tail)
    (ha : answerFiring e r s = (a, w)) :
    firingRequest r.line s = runEvaluation k e (completeResolution k e c tail a (setEvaluation none w)) := by
  simp only [firingRequest, hev, if_true, takeFiringRequest, hs, ha]
  rw [completeResolution_setEvaluation, runEvaluation_setEvaluation]

/-- The active pulse of a firing (R106). -/
theorem cuePulse_eq (s : State) (e : EvalInput) (r : FiringRequest) (h : inRange e.pos = true) :
    let f := s.profiles[r.profile]
    let w := r.width.getD f.width
    let x := if e.travel = .forward then e.pos + w else e.pos - w
    cuePulse s e r =
      { origin := .cue, profile := r.profile, fromOverride := r.fromOverride, holdoff := f.holdoff
        finish := match f.mode with
          | .time => .time (s.now + min w 65535)
          | .distance => .distance (max (-140737488355328) (min 140737488355327 x)) e.travel
              (if f.maxOn = 0 then none else some (s.now + f.maxOn * 1000)) } := by
  simp only [cuePulse, pulseEndFor, distanceEnd_eq _ _ _ h, afterUs, afterMs] <;> cases s.profiles[r.profile].mode <;> rfl

/-- A pulse that begins in OFF is told to the LSV (R106). -/
theorem beginPulse_off {s : State} {n : LineId} {p : Pulse} (h : s.lines[n].state = .off) :
    beginPulse n p s = { setLine n { s.lines[n] with state := .on, pulse := some p, holdoffTimer := none } s with
      transit := { s.transit with toLsv := s.transit.toLsv.set n (s.transit.toLsv[n] ++ [.begun]) } } := by
  simp only [beginPulse, h, reduceCtorEq, if_false]
  rfl

/-- A pulse that begins in TEST gives up the probe and is told to the LSV (R106). -/
theorem beginPulse_test {s : State} {n : LineId} {p : Pulse} (h : s.lines[n].state = .test) :
    beginPulse n p s = { setLine n { s.lines[n] with state := .on, pulse := some p, holdoffTimer := none } s with
      transit := { s.transit with
        toLsv := s.transit.toLsv.set n (s.transit.toLsv[n] ++ [.abandoned .pulse, .begun]) } } := by
  simp only [beginPulse, h, if_true, tellLsv, setLine, setTransit]
  simp only [Fin.getElem_fin, Vector.getElem_set_self, Vector.set_set, List.append_assoc, List.cons_append, List.nil_append]

/-- Settles O27: the answer of the line in each of its states, and the event that goes on with it. -/
theorem firingRequestIsAnswered : Obligations.FiringRequestIsAnswered := by
  unfold Obligations.FiringRequestIsAnswered
  refine ⟨fun s n h => ?_, ?_⟩
  · have stay : firingRequest n s = s := by
      unfold firingRequest
      split
      · next v hv => rw [if_neg (h v hv)]
      · rfl
    exact congrArg _ stay
  · intro s k e r c tail hev hs hpos n u f w x p v i answer begun
    have answered : ∀ {a w}, answerFiring e r s = (a, w) → answer a (setEvaluation none w) := fun {a w} ha => by
      have run : exec i s = .next (runEvaluation k e (completeResolution k e c tail a (setEvaluation none w))) :=
        congrArg _ (firingRequest_answered hev hs ha)
      have csu : w.csu = s.csu := by
        have := answerFiring_csu s e r
        rwa [ha] at this
      have tracks : w.tracks = s.tracks := by
        have := (answerFiring_beside s e r).tracks
        rwa [ha] at this
      have quiet : (setEvaluation none w).csu.evaluation = none := rfl
      refine ⟨fun single next => ?_, fun sense => ?_⟩
      · have stops : headAhead k e (completeResolution k e c tail a (setEvaluation none w)) := by
          rw [completeResolution_single _ k e c tail a single, headAhead, told_csu, scheduled_get]
          exact next
        rw [run, runEvaluation_stop _ k stops ((completeResolution_rest _ k e c tail a).2.2.trans quiet),
          completeResolution_single _ k e c tail a single]
      · refine ⟨_, completeResolution_resolved _ k e c tail a (sense.trans (by rw [← tracks]; rfl)), fun stops => ?_,
          fun evaluating at_ => ?_⟩
        · rw [run, runEvaluation_stop _ k stops ((completeResolution_rest _ k e c tail a).2.2.trans quiet)]
        · refine run.trans (congrArg _ (runEvaluation_again _ k quiet ?_ ?_).1)
          · exact (congrArg (·.modes[k]) csu).trans evaluating
          · exact (congrArg (·.taken[k]) csu).trans at_
    have pulse : cuePulse s e r = p := cuePulse_eq s e r hpos
    have states : s.lines[r.line].state = u.state := rfl
    have policies : s.lines[r.line].cfg.policy = u.cfg.policy := rfl
    refine ⟨fun off => ?_, fun fault => ?_, fun enabled sound inhibited => ?_, fun free busy => ?_, fun free on policy => ?_,
      fun free off => ?_, fun free test => ?_⟩
    · exact answered (by simp only [answerFiring, states, off])
    · exact answered (by simp only [answerFiring, states, fault])
    · refine answered ?_
      simp only [answerFiring, states, inhibited, if_true]
      cases hu : u.state
      case disabled => exact absurd hu enabled
      case fault => exact absurd hu sound
      all_goals rfl
    · rcases busy with holdoff | ⟨on, policy⟩
      · exact answered (by simp only [answerFiring, states, holdoff, free, Bool.false_eq_true, if_false])
      · exact answered (by simp only [answerFiring, states, policies, on, policy, free, Bool.false_eq_true, if_false])
    · refine answered (w := retrigger n p s) ?_
      simp only [answerFiring, states, policies, on, policy, free, pulse, Bool.false_eq_true, if_false, n]
    · have := answered (a := .fired) (w := beginPulse n p s)
        (by simp only [answerFiring, states, off, free, pulse, Bool.false_eq_true, if_false, n])
      rw [beginPulse_off off] at this
      exact this
    · have := answered (a := .fired) (w := beginPulse n p s)
        (by simp only [answerFiring, states, test, free, pulse, Bool.false_eq_true, if_false, n])
      rw [beginPulse_test test] at this
      exact this

end Sys2Proof.Machine
end

section
/-! SUPPORT. The statements about the notices of a track at the CSU, about spawn requests and about the loss policies (03,
  04, 09). -/

namespace Sys2Proof.Machine

-- One proof at a time: proofs elaborated side by side would hold a thread each, and its stack.
set_option Elab.async false

/-! ### Removal of the reached cues (R72, R73) -/

theorem remaining_eq (c : Cue) : c.remaining = (c.repetition.map CueRepeat.remaining).getD 0 := by
  unfold Cue.remaining
  cases c.repetition <;> rfl

theorem told_setMode (s : State) (k : TrackId) (o : OutcomeReport) (level : Notify) (m : EvalMode) :
    told o level (setMode k m s) = setMode k m (told o level s) := by
  unfold told
  split
  · show raiseRouted (routeOwned s (trackOwner s o.track)) _ _ = _
    unfold raiseRouted
    split <;> rfl
  · rfl

/-- The reports of a removal do not look at the mode of a schedule. -/
theorem removalReports_setMode (k : TrackId) (r : CueResult) (x : Int) (cs : List Cue) (s : State) (m : EvalMode) :
    setMode k m (removalReports k r x cs s) = removalReports k r x cs (setMode k m s) := by
  have fold : ∀ (f : Cue → OutcomeReport) (s : State), setMode k m (cs.foldl (fun t c => told (f c) c.notify t) s) =
      cs.foldl (fun t c => told (f c) c.notify t) (setMode k m s) := fun f => by
    induction cs with
    | nil => exact fun _ => rfl
    | cons c cs ih => intro s; rw [List.foldl_cons, ih, List.foldl_cons, told_setMode]
  exact fold _ s

/-- A removal takes out what the position reaches and reports each cue (R72, R73). -/
theorem removeReached_eq (k : TrackId) (r : CueResult) (x : Int) (s : State) :
    removeReached k r x s =
      removalReports k r x (s.csu.schedules[k].filter fun c => !ahead s.tracks[k].cfg.travel c.effective x)
        (setSchedule k (s.csu.schedules[k].filter fun c => ahead s.tracks[k].cfg.travel c.effective x) s) := by
  have each : ∀ v, raiseRemoval k r v x = fun t c => told
      { track := k, key := c.key, result := r, line := c.line, index := c.index, pos := x, rangeEnd := false
        overshoot := if r = .passed then 0 else min (pastBy v x c.effective).toNat 4294967295
        remaining := (c.repetition.map CueRepeat.remaining).getD 0 } c.notify t := by
    intro v
    funext t c
    rw [raiseRemoval, raiseOutcome_eq, overshoot_eq, reportedOvershoot_eq, remaining_eq]
  simp only [removeReached, each, reaches_eq, Bool.not_not]
  rfl

/-- Settles O29: each notice takes out the reached cues, and the mode is set apart from them. -/
theorem trackNoticesRemoveReachedCues : Obligations.TrackNoticesRemoveReachedCues := by
  unfold Obligations.TrackNoticesRemoveReachedCues
  intro s k x rest hev v stays goes t u
  have quiet : finishEvaluation s = s := finishEvaluation_none s hev
  have removed : ∀ r, removeReached k r x (setTaken k x (putToCsu k rest s)) = removalReports k r x goes u := fun r =>
    removeReached_eq k r x (setTaken k x (putToCsu k rest s))
  refine ⟨fun h => ?_, fun h => ?_, fun h => ?_⟩
  · show Host.Outcome.next (discontinuityNotice k s) = _
    rw [discontinuityNotice, h, quiet]
    exact congrArg _ (removed .passed)
  · show Host.Outcome.next (resumeNotice k s) = _
    rw [resumeNotice, h, quiet]
    exact congrArg _ ((congrArg (setMode k .evaluating) (removed .missed)).trans (removalReports_setMode ..))
  · show Host.Outcome.next (freezeNotice k s) = _
    rw [freezeNotice, h, quiet]
    rfl

/-! ### Spawn requests (R52, R53) -/

/-- Settles O30: the checks of R53 in order. -/
theorem spawnRequestIsJudged : Obligations.SpawnRequestIsJudged := by
  unfold Obligations.SpawnRequestIsJudged
  intro s k r rest hfront hev t m x p e v i fails early reached
  have run : exec i s = .next (takeSpawn k r v) := by
    show Host.Outcome.next (spawnRequest k s) = _
    rw [spawnRequest, hfront, finishEvaluation_none s hev]
    rfl
  have nominal : spawnNominal v k r = p := by
    show r.pos + t.cfg.travel.sign * m.offset = p
    simp only [p]
    cases t.cfg.travel <;> simp [Travel.sign]; omega
  have effective : (spawnCue v k r).effective = e := by
    show effectiveOf v k m.line (spawnNominal v k r) = e
    rw [nominal, effectiveOf_eq]
    rfl
  have outside : (!(inRange (spawnCue v k r).nominal && inRange (spawnCue v k r).effective)) = true ↔
      inRange p = false ∨ inRange e = false := by
    rw [effective]
    show (!(inRange (spawnNominal v k r) && inRange e)) = true ↔ _
    rw [nominal, Bool.not_eq_true', Bool.and_eq_false_iff]
  have missed : t.state ≠ .disabled → ((checksAhead v k && alreadyReached v k (spawnCue v k r).effective) = true ↔ reached) := fun hd => by
    have tracking : checksAhead v k = (t.state != .fault) := isTracking_eq v k hd
    rw [effective, tracking, alreadyReached, reaches_eq, Bool.and_eq_true, Bool.not_eq_true', bne_iff_ne]
  have judged : judgeSpawn v k r = match early with
      | some st => .failed st
      | none =>
        if reached then .missed
        else if freeCount s = 0 then .failed .poolFull
        else if t.cfg.scheduleLimit ≤ cueCount s k then .failed .trackFull
        else .inserted := by
    rw [judgeSpawn]
    split
    · next hd => simp only [early]; rw [if_pos hd]
    · next hd =>
      simp only [missed hd, outside, early]
      rw [if_neg hd]
      by_cases wrong : s.lines[m.line].cfg.track ≠ k
      · rw [if_pos wrong, if_pos wrong]
      · by_cases out : inRange p = false ∨ inRange e = false
        · rw [if_neg wrong, if_pos out, if_neg wrong, if_pos out]
        · rw [if_neg wrong, if_neg out, if_neg wrong, if_neg out]
          rfl
  have fail : ∀ st, judgeSpawn v k r = .failed st → fails st := fun st h => by
    show exec i s = _
    rw [run, takeSpawn, h]
    rfl
  refine ⟨fun st h => ?_, fun h hr => ?_, fun h hr hp => ?_, fun h hr hp hf => ?_, fun h hr hp hf => ?_⟩ <;> rw [h] at judged
  · exact fail st judged
  · rw [run, takeSpawn, judged, if_pos hr]
    dsimp only
    rw [raiseOutcome_eq, spawnMissedReport, effective, overshoot_eq, reportedOvershoot_eq]
  · exact fail _ (by rw [judged, if_neg hr, if_pos hp])
  · exact fail _ (by rw [judged, if_neg hr, if_neg hp.ne', if_pos hf])
  · obtain ⟨before, after, split, place, inserts⟩ := insertRecord_inserted v k (spawnCue v k r)
    rw [effective] at place
    refine ⟨before, after, split, place, ?_⟩
    rw [run, takeSpawn, judged, if_neg hr, if_neg hp.ne', if_neg hf.not_ge]
    dsimp only
    rw [inserts, spawnCue, nominal, effectiveOf_eq]
    rfl

/-! ### Loss policies (R57, R93, R120, R166) -/

/-- The CSU takes the oldest notice of a loss, one of a track (R166). -/
theorem flushLossPolicy_track {s : State} {k : TrackId} {rest : List LossNotice} (hev : s.csu.evaluation = none)
    (h : s.transit.csuLoss = .track k :: rest) :
    flushLossPolicy s = flushTrackLoss k (setTransit { s.transit with csuLoss := rest } s) := by
  have quiet := finishEvaluation_none (setTransit { s.transit with csuLoss := rest } s) hev
  simp only [flushLossPolicy, h, quiet]

/-- The CSU takes the oldest notice of a loss, one of a line (R166). -/
theorem flushLossPolicy_line {s : State} {n : LineId} {rest : List LossNotice} (hev : s.csu.evaluation = none)
    (h : s.transit.csuLoss = .line n :: rest) :
    flushLossPolicy s = flushLineLoss n (setTransit { s.transit with csuLoss := rest } s) := by
  have quiet := finishEvaluation_none (setTransit { s.transit with csuLoss := rest } s) hev
  simp only [flushLossPolicy, h, quiet]

/-- Settles O31: each unit takes one notice of a loss. -/
theorem flushLossPolicyIsApplied : Obligations.FlushLossPolicyIsApplied := by
  unfold Obligations.FlushLossPolicyIsApplied
  refine ⟨fun s k rest hev h => ?_, fun s n rest hev h => ?_, fun s k m h => ?_, fun s n m h => ?_⟩
  · show Host.Outcome.next (flushLossPolicy s) = _
    have none_kept : ∀ cs : List Cue, cs.filter (fun _ => false) = [] := fun cs => List.filter_eq_nil_iff.2 (by simp)
    rw [flushLossPolicy_track hev h]
    simp only [flushTrackLoss, bulkRemove, none_kept]
    rfl
  · intro k gone v
    have run : exec .flushLossPolicy s = .next (flushLineLoss n v) := congrArg _ (flushLossPolicy_line hev h)
    have counted : bulkCount k (otherLineThan n) v = gone.length := by
      simp [bulkCount, otherLineThan, gone, bne, beq_eq_decide, v]
    have kept : s.csu.schedules[k].filter (otherLineThan n) = s.csu.schedules[k].filter fun c => c.line ≠ n :=
      List.filter_congr fun c _ => by
        rw [Bool.eq_iff_iff, decide_eq_true_iff]
        exact bne_iff_ne
    rw [run, flushLineLoss]
    simp only [show v.lines[n].cfg.track = k from rfl, counted, List.length_eq_zero_iff]
    refine ⟨fun h => by rw [if_pos h], fun h => ?_⟩
    rw [if_neg h, bulkRemove, show v.csu.schedules[k] = s.csu.schedules[k] from rfl, kept]
    rfl
  · show Host.Outcome.next (markUnitOffNotice k s) = _
    rw [markUnitOffNotice, if_neg (by omega), h]
    rfl
  · intro v
    have run : exec (.lineLossPolicy n) s = .next (if s.lines[n].state = .on then truncatePulse n .linkLost v else v) := by
      show Host.Outcome.next (lineLossPolicy n s) = _
      rw [lineLossPolicy, if_neg (by omega), h]
      rfl
    refine ⟨fun off => by rw [run, if_neg off], fun p on pulse => ?_⟩
    rw [run, if_pos on, truncatePulse_eq v n .linkLost p pulse]

end Sys2Proof.Machine
end

section
/-! SUPPORT. The statements about the mark units: mark edges, position changes, notices and commands (05). -/

namespace Sys2Proof.Machine

-- One proof at a time: proofs elaborated side by side would hold a thread each, and its stack.
set_option Elab.async false

section
variable (s : State) (k : TrackId)

/-! ### Distances, tracking and the report values -/

theorem fromLast_eq (x : Int) : fromLast s k x = pastBy s.tracks[k].cfg.travel x s.marks[k].last := by
  simp only [fromLast, pastBy]
  cases s.tracks[k].cfg.travel <;> simp [Travel.sign]

/-- The position one pitch on (R89). -/
theorem substitutePos_eq : substitutePos s k =
    if s.tracks[k].cfg.travel = .forward then s.marks[k].last + s.marks[k].cfg.pitch
    else s.marks[k].last - s.marks[k].cfg.pitch := by
  simp only [substitutePos]
  cases s.tracks[k].cfg.travel <;> simp [Travel.sign]
  omega

/-- One pitch on is one pitch nearer (R88, R89). -/
theorem pastBy_substitute (v : Travel) (x last : Int) (p : Nat) :
    pastBy v x (if v = .forward then last + p else last - p) = pastBy v x last - p := by
  cases v <;> simp [pastBy] <;> omega

theorem markTracking_iff : markTracking s k = true ↔
    s.tracks[k].state = .settling ∨ s.tracks[k].state = .running ∨ MarkNotice.fault ∈ s.transit.toMark[k] := by
  simp only [markTracking, isTracking, Bool.or_eq_true, beq_iff_eq, List.contains_iff_mem, or_assoc]

theorem isEarly_iff (x : Int) : isEarly s k x = true ↔
    s.marks[k].cfg.pitch ≠ 0 ∧ s.marks[k].valid = true ∧
      pastBy s.tracks[k].cfg.travel x s.marks[k].last < (s.marks[k].cfg.pitch : Int) - s.marks[k].cfg.tolerance := by
  simp only [isEarly, fromLast_eq, Bool.and_eq_true, bne_iff_ne, decide_eq_true_iff, and_assoc]

/-- A mark is missing at a position (R88). -/
theorem isMissing_iff (x : Int) : isMissing s k x = true ↔
    (s.marks[k].state = .armed ∨ s.marks[k].state = .blanked) ∧ s.marks[k].cfg.pitch ≠ 0 ∧ s.marks[k].valid = true ∧
      (s.tracks[k].state = .settling ∨ s.tracks[k].state = .running ∨ MarkNotice.fault ∈ s.transit.toMark[k]) ∧
      (s.marks[k].cfg.pitch : Int) + s.marks[k].cfg.tolerance ≤ pastBy s.tracks[k].cfg.travel x s.marks[k].last := by
  simp only [isMissing, watchActive, fromLast_eq, Bool.and_eq_true, Bool.or_eq_true, beq_iff_eq, bne_iff_ne, decide_eq_true_iff,
    markTracking_iff, and_assoc]

/-! ### The placing of a mark -/

theorem setMark_get (m : Mark) : (setMark k m s).marks[k] = m := by simp

theorem setMark_setMark (m m' : Mark) : setMark k m (setMark k m' s) = setMark k m s := by simp [setMark]

/-- The spawn requests of a mark go behind those on their way (R95). -/
theorem spawnProgram_eq (x : Int) (seq : BitVec 16) :
    spawnProgram k x seq s = { s with transit := { s.transit with
      spawns := s.transit.spawns.set k (s.transit.spawns[k] ++ spawned s.marks[k] seq x) } } := by
  have fold : ∀ (m : Mark) (es : List EntryId) (t : State),
      es.foldl (fun t e => if m.program[e].enabled then tellSpawn k ⟨e, seq, x, m.program[e]⟩ t else t) t =
        { t with transit := { t.transit with spawns := t.transit.spawns.set k (t.transit.spawns[k] ++
          ((es.filter fun e => m.program[e].enabled).map fun e => (⟨e, seq, x, m.program[e]⟩ : Spawn))) } } := by
    intro m es
    induction es with
    | nil => intro t; simp [-Fin.getElem_fin, set_getElem_same]
    | cons e es ih =>
      intro t
      rw [List.foldl_cons, ih]
      by_cases h : m.program[e].enabled
      · rw [if_pos h, List.filter_cons, if_pos h]
        simp [tellSpawn, setTransit]
      · rw [if_neg h, List.filter_cons, if_neg h]
  exact fold s.marks[k] allEntries s

/-- The placing of a mark: the unit, the report if there is one, and the requests of its program (R85, R89). -/
theorem marked_eq (m : Mark) (report : Option MarkReport) (h : m.program = s.marks[k].program) :
    spawnProgram k m.last m.seq (match report with
      | some r => raiseTrack k (.mark r) (setMark k m s)
      | none => setMark k m s) = marked k m report s := by
  have requests : ∀ u : State, u.marks[k] = m → u.transit.spawns = s.transit.spawns →
      spawnProgram k m.last m.seq u = { u with transit := { u.transit with
        spawns := s.transit.spawns.set k (s.transit.spawns[k] ++ spawned s.marks[k] m.seq m.last) } } := fun u hm hs => by
    rw [spawnProgram_eq, hs, hm]
    simp only [spawned, h]
  cases report with
  | none => exact requests _ (setMark_get s k m) rfl
  | some r =>
    obtain ⟨q, raised⟩ := raiseTrack_frame (setMark k m s) k (.mark r)
    exact requests _ (by rw [raiseTrack_marks, setMark_get]) (by dsimp only; rw [raised]; rfl)

/-- Where a mark is placed, the unit as it stood counts for its program alone. -/
theorem marked_setMark (m m' : Mark) (report : Option MarkReport) (h : m'.program = s.marks[k].program) :
    marked k m report (setMark k m' s) = marked k m report s := by
  have same : spawned (setMark k m' s).marks[k] m.seq m.last = spawned s.marks[k] m.seq m.last := by
    rw [setMark_get]
    simp only [spawned, h]
  simp only [marked, same, setMark_setMark]
  rfl

/-- A capture places the mark at the position of the edge (R85, R86). -/
theorem capture_eq (x : Int) : capture k x s = marked k
    { s.marks[k] with
      seq := s.marks[k].seq + 1, last := x, valid := true, substitutions := 0, loss := .absent
      state := if s.marks[k].cfg.blank = 0 then .armed else .blanked }
    (if s.marks[k].cfg.reports then some
      { track := k, seq := s.marks[k].seq + 1, pos := x, vel := s.tracks[k].vel
        pitch := if s.marks[k].valid then some (held32 (pastBy s.tracks[k].cfg.travel x s.marks[k].last)) else none
        substituted := false, afterLoss := s.marks[k].state = .lost } else none) s := by
  have lost : (s.marks[k].state == .lost) = decide (s.marks[k].state = .lost) := rfl
  have pitch : saturate32 (fromLast s k x) = held32 (pastBy s.tracks[k].cfg.travel x s.marks[k].last) := by
    rw [saturate32_eq, fromLast_eq, held32]
  rw [← marked_eq s k _ _ (by rfl), ← pitch]
  simp only [capture, setMark_get, capturedMark, captureReport, lost]
  by_cases h : s.marks[k].cfg.reports
  · simp only [h, if_true]
  · simp only [h]
    rfl

/-- A substitution places the mark one pitch on (R89). -/
theorem substitute_eq (x : Int) : substitute k x s = marked k (substitutedMark s k x) (some (substituteReport s k)) s :=
  marked_eq s k (substitutedMark s k x) (some (substituteReport s k)) rfl

end

section
variable {s : State} {k : TrackId} {edge : MarkEdge} (he : edge = s.marks[k].cfg.edge)
include he

/-! ### A mark edge in each state of the unit (R83) -/

theorem markEdge_off (h : s.marks[k].state = .off) : markEdge k edge s = s := by
  simp only [markEdge, if_pos he, h]

theorem markEdge_blanked (h : s.marks[k].state = .blanked) : markEdge k edge s = ignoreEdge k s := by
  simp only [markEdge, if_pos he, h]

theorem markEdge_armed (h : s.marks[k].state = .armed) : markEdge k edge s =
    if markTracking s k then armedEdge k s.tracks[k].pos s else ignoreEdge k s := by
  simp only [markEdge, if_pos he, h]

theorem markEdge_lost (h : s.marks[k].state = .lost) : markEdge k edge s =
    if markTracking s k then capture k s.tracks[k].pos s else ignoreEdge k s := by
  simp only [markEdge, if_pos he, h]

end

/-- Settles O32: the edge by the state of the unit, and in ARMED by the early check. -/
theorem markEdgeIsHandled : Obligations.MarkEdgeIsHandled := by
  unfold Obligations.MarkEdgeIsHandled
  intro s k edge m t d early tracking i
  have isTracking : markTracking s k = true ↔ tracking := markTracking_iff s k
  have tooEarly : isEarly s k t.pos = true ↔ early := isEarly_iff s k t.pos
  have pitch : saturate32 (fromLast s k t.pos) = held32 d := by rw [saturate32_eq, fromLast_eq, held32]
  have run : exec i s = .next (markEdge k edge s) := rfl
  refine ⟨fun h => ?_, fun he h => ?_, fun he armed tr ea => ?_, fun he tr h => ?_⟩
  · by_cases he : edge = m.cfg.edge
    · rw [run, markEdge_off he (h.resolve_left (not_not.2 he))]
    · rw [run, markEdge, if_neg he]
  · have ignored : markEdge k edge s = ignoreEdge k s := by
      rcases h with blanked | ⟨on, still⟩
      · exact markEdge_blanked he blanked
      · rw [← isTracking] at still
        cases hm : m.state
        case off => exact absurd hm on
        case blanked => exact markEdge_blanked he hm
        case armed => rw [markEdge_armed he hm, if_neg still]
        case lost => rw [markEdge_lost he hm, if_neg still]
    rw [run, ignored]
    rfl
  · rw [run, markEdge_armed he armed, if_pos (isTracking.2 tr), armedEdge, if_pos (tooEarly.2 ea), pitch]
    rfl
  · have captured : markEdge k edge s = capture k t.pos s := by
      rcases h with lost | ⟨armed, late⟩
      · rw [markEdge_lost he lost, if_pos (isTracking.2 tr)]
      · rw [markEdge_armed he armed, if_pos (isTracking.2 tr), armedEdge, if_neg (mt tooEarly.1 late)]
    rw [run, captured, capture_eq]

/-! ### Position changes (R87 to R91) -/

section
variable (s : State) (k : TrackId)

/-- A change ends blanking at the blank distance, and otherwise not (R87). -/
theorem endBlanking_eq (x : Int) : endBlanking k x s =
    if s.marks[k].state = .blanked ∧ (s.marks[k].cfg.blank : Int) ≤ pastBy s.tracks[k].cfg.travel x s.marks[k].last then
      setMark k { s.marks[k] with state := .armed } s
    else s := by
  simp only [endBlanking, fromLast_eq]

/-- The end of blanking changes whether the unit is BLANKED or ARMED, and no more: a missing mark stays so. -/
theorem isMissing_endBlanking (x : Int) : isMissing (endBlanking k x s) k x = isMissing s k x := by
  rw [endBlanking_eq]
  split
  · next h =>
    rw [Bool.eq_iff_iff, isMissing_iff, isMissing_iff, setMark_get, h.1]
    simp
  · rfl

/-- The watch loop on a unit that has no missing mark does nothing (R88). -/
theorem watchLoop_stop {fuel : Nat} {x : Int} (h : isMissing s k x = false) : watchLoop fuel k x s = s := by
  cases fuel with
  | zero => rfl
  | succ fuel => rw [watchLoop, h]; rfl

theorem watchLoop_substitute {fuel : Nat} {x : Int} (h : isMissing s k x = true)
    (left : s.marks[k].substitutions < s.marks[k].cfg.limit) :
    watchLoop (fuel + 1) k x s = watchLoop fuel k x (substitute k x s) := by
  rw [watchLoop, if_pos h, if_pos left]

/-- Where the unit stands after a mark is placed. -/
theorem marked_get (m : Mark) (report : Option MarkReport) : (marked k m report s).marks[k] = m := by
  cases report <;> simp [marked]

/-- Any bound above the substitutions left gives the same watch (R89, R90). -/
theorem watchLoop_fuel {a b : Nat} {x : Int} (ha : s.marks[k].cfg.limit - s.marks[k].substitutions < a)
    (hb : s.marks[k].cfg.limit - s.marks[k].substitutions < b) : watchLoop a k x s = watchLoop b k x s := by
  induction a generalizing s b with
  | zero => omega
  | succ a ih =>
    obtain ⟨b, rfl⟩ : ∃ b', b = b' + 1 := ⟨b - 1, by omega⟩
    by_cases missing : isMissing s k x = true
    · by_cases left : s.marks[k].substitutions < s.marks[k].cfg.limit
      · have fewer : (substitute k x s).marks[k] = substitutedMark s k x := by rw [substitute_eq, marked_get]
        rw [watchLoop_substitute s k missing left, watchLoop_substitute s k missing left]
        refine ih _ ?_ ?_ <;> rw [fewer, substitutedMark] <;> dsimp only <;> omega
      · rw [watchLoop, watchLoop, if_pos missing, if_pos missing, if_neg left, if_neg left]
    · rw [watchLoop_stop s k (Bool.not_eq_true _ ▸ missing), watchLoop_stop s k (Bool.not_eq_true _ ▸ missing)]

/-- A substitution places the mark one pitch on, and leaves the unit BLANKED within the blank distance of it (R86, R89). -/
theorem substitute_marked (x : Int) :
    let m := s.marks[k]
    let v := s.tracks[k].cfg.travel
    let y := if v = .forward then m.last + m.cfg.pitch else m.last - m.cfg.pitch
    substitute k x s = marked k
      { m with
        seq := m.seq + 1, last := y, substitutions := m.substitutions + 1
        state := if pastBy v x m.last - m.cfg.pitch < m.cfg.blank then .blanked else .armed }
      (some { track := k, seq := m.seq + 1, pos := y, vel := s.tracks[k].vel, pitch := some m.cfg.pitch
              substituted := true, afterLoss := false }) s := by
  intro m v y
  have place : substitutePos s k = y := substitutePos_eq s k
  have beyond : v.sign * (x - y) = pastBy v x m.last - m.cfg.pitch := by
    rw [← pastBy_substitute]
    show _ = pastBy v x y
    simp only [pastBy]
    cases v <;> simp [Travel.sign]
  rw [substitute_eq, substitutedMark, substituteReport, place, beyond]

/-- A substitution does not look at the end of blanking before it. -/
theorem substitute_endBlanking (x : Int) : substitute k x (endBlanking k x s) = substitute k x s := by
  rw [endBlanking_eq]
  split
  · rw [substitute_marked, substitute_marked, setMark_get]
    exact marked_setMark s k _ _ _ rfl
  · rfl

/-- The end of blanking keeps the settings and the counts of the unit. -/
theorem endBlanking_get (x : Int) : ∃ st, (endBlanking k x s).marks[k] = { s.marks[k] with state := st } := by
  rw [endBlanking_eq]
  split
  · exact ⟨.armed, setMark_get ..⟩
  · exact ⟨s.marks[k].state, rfl⟩

/-- What a placed mark leaves as it is. -/
theorem marked_rest (m : Mark) (report : Option MarkReport) : (marked k m report s).tracks = s.tracks ∧
    (marked k m report s).transit.toMark = s.transit.toMark := by
  cases report with
  | none => exact ⟨rfl, rfl⟩
  | some r =>
    simp only [marked, raiseRouted]
    split <;> exact ⟨rfl, rfl⟩

/-- The change at the front of the notices to MUk is taken (R91). -/
theorem markPositionChange_taken {x : Int} {rest : List MarkNotice} (h : s.transit.toMark[k] = .change x :: rest) :
    markPositionChange k s = takeMarkChange k x (putToMark k rest s) := by
  simp only [markPositionChange, h]

end

/-- Settles O33: the end of blanking, then the watch, one substitution at a time. -/
theorem markUnitWatchesPositionChanges : Obligations.MarkUnitWatchesPositionChanges := by
  unfold Obligations.MarkUnitWatchesPositionChanges
  intro s k x rest hfront m t d v missing y w i
  have run : exec i s = .next (takeMarkChange k x v) := congrArg _ (markPositionChange_taken s k hfront)
  have notices : v.transit.toMark[k] = rest := by simp [v]
  have isMissing : isMissing (endBlanking k x v) k x = true ↔ missing := by
    rw [isMissing_endBlanking, isMissing_iff, notices]
  have still : ¬missing → exec i s = .next (endBlanking k x v) := fun h => by
    rw [run, takeMarkChange, watchLoop_stop _ k (Bool.eq_false_iff.2 (mt isMissing.1 h))]
  have blanking : endBlanking k x v =
      if m.state = .blanked ∧ (m.cfg.blank : Int) ≤ d then setMark k { m with state := .armed } v else v := endBlanking_eq v k x
  obtain ⟨st, unit⟩ : ∃ st, (endBlanking k x v).marks[k] = { m with state := st } := endBlanking_get v k x
  have placed : substitute k x (endBlanking k x v) = w := by
    rw [substitute_endBlanking, substitute_marked]
  have substituted : missing → m.substitutions < m.cfg.limit → exec i s = .next (watchLoop m.cfg.limit k x w) := fun h left => by
    rw [run, takeMarkChange, watchLoop_substitute _ k (isMissing.2 h) (by rw [unit]; exact left), placed, unit]
  have unitAfter : w.marks[k] = _ := marked_get v k _ _
  obtain ⟨tracks, notices'⟩ : w.tracks = v.tracks ∧ w.transit.toMark = v.transit.toMark := marked_rest v k _ _
  have further : pastBy w.tracks[k].cfg.travel x w.marks[k].last = d - m.cfg.pitch := by
    rw [tracks, unitAfter]
    exact pastBy_substitute ..
  refine ⟨fun h blanked reached => ?_, fun h ahead => ?_, fun h left short => ?_, fun h left => ?_, fun h limit => ?_⟩
  · rw [still h, blanking, if_pos ⟨blanked, reached⟩]
  · rw [still h, blanking, if_neg]
    rintro ⟨blanked, reached⟩
    rcases ahead with other | before
    · exact other blanked
    · omega
  · rw [substituted h left, watchLoop_stop]
    rw [Bool.eq_false_iff, ne_eq, isMissing_iff, further, unitAfter]
    rintro ⟨-, -, -, -, beyond⟩
    have : (m.cfg.pitch : Int) + m.cfg.tolerance ≤ d - m.cfg.pitch := beyond
    omega
  · have again : exec i { w with transit := { w.transit with toMark := w.transit.toMark.set k (.change x :: rest) } } =
        .next (takeMarkChange k x w) := by
      refine congrArg _ ((markPositionChange_taken _ k (rest := rest) (by simp)).trans (congrArg (takeMarkChange k x) ?_))
      have back : (w.transit.toMark.set k (.change x :: rest)).set k rest = w.transit.toMark := by
        rw [Vector.set_set, notices']
        exact Vector.set_set ..
      simp only [putToMark, setTransit, back]
    have blanked : endBlanking k x w = w := by
      rw [endBlanking_eq, further, unitAfter, if_neg]
      dsimp only
      rintro ⟨within, reached⟩
      split at within
      · omega
      · cases within
    rw [again, substituted h left, takeMarkChange, blanked]
    refine congrArg _ (watchLoop_fuel w k ?_ ?_) <;> rw [unitAfter] <;> dsimp only <;> omega
  · rw [run, takeMarkChange, watchLoop, if_pos (isMissing.2 h), unit, if_neg limit.not_gt, loseMark, unit, blanking]
    split
    · rw [setMark_setMark]
      rfl
    · rfl

/-- Settles O34: ARMED and BLANKED are lost, LOST and OFF stay. -/
theorem trackNoticesLoseTheMark : Obligations.TrackNoticesLoseTheMark := by
  unfold Obligations.TrackNoticesLoseTheMark
  intro s k rest m v lost
  have state : (putToMark k rest s).marks[k].state = m.state := rfl
  have loses : ∀ cause,
    m.state = .armed ∨ m.state = .blanked → takeMarkLoss k cause (putToMark k rest s) = lost cause := fun cause h => by
    rcases h with h | h <;> simp only [takeMarkLoss, state, h] <;> rfl
  have stays : ∀ cause, m.state = .lost ∨ m.state = .off → takeMarkLoss k cause (putToMark k rest s) = v := fun cause h => by
    rcases h with h | h <;> simp only [takeMarkLoss, state, h] <;> rfl
  refine ⟨fun h => ?_, fun h => ?_⟩
  · have run : exec (.markFaultNotice k) s = .next (takeMarkLoss k .trackFault (putToMark k rest s)) := by
      show Host.Outcome.next (markFaultNotice k s) = _
      rw [markFaultNotice, h]
    exact ⟨fun h => by rw [run, loses _ h], fun h => by rw [run, stays _ h]⟩
  · have run : exec (.markDiscontinuityNotice k) s = .next (takeMarkLoss k .discontinuity (putToMark k rest s)) := by
      show Host.Outcome.next (markDiscontinuityNotice k s) = _
      rw [markDiscontinuityNotice, h]
    exact ⟨fun h => by rw [run, loses _ h], fun h => by rw [run, stays _ h]⟩

/-! ### The commands of the mark units (R82, R94, R96, R97) -/

/-- Settles O35: each command reads its operands and sets one unit. -/
theorem markCommandsSetTheUnit : Obligations.MarkCommandsSetTheUnit := by
  unfold Obligations.MarkCommandsSetTheUnit
  intro s l seq k hr m
  refine ⟨?query, fun ho => ⟨fun c hblank hpitch htolerance hlimit => ?set, fun off => ?refused, fun on off => ?armed,
    fun on active => ?kept, ?disarmed, fun e t hoffset hwidth htolerance hn => ?template⟩⟩
  case query =>
    refine answered_of_effect s l runQueryMarks rfl hr (List.cons_ne_nil _ _) (by simp [Config.maxPayload]) fun L Q _ _ => ?_
    rw [runQueryMarks, parseTrack_index]
    rfl
  case set =>
    have parsed : parseSetMark (0x40 :: setMarkArgs k c) = .ok (k, c) :=
      parseSetMark_iff.2 ⟨⟨hblank, hpitch, htolerance, hlimit⟩, rfl⟩
    refine answered_of_effect s l runSetMark rfl hr (List.cons_ne_nil _ _) (by simp [setMarkArgs,
      Config.maxPayload]) fun L Q _ _ => ?_
    have owner : trackOwner (withLinks L Q s) k ≠ some (otherLink l) := ho
    rw [runSetMark, parsed]
    simp only [withArgs, onTrack_allowed owner]
    rfl
  case refused =>
    refine track_answered hr ho (run := runArmMarks) rfl (fun _ => rfl) fun L Q => ?_
    rw [withLinks_tracks, if_pos off]
    rfl
  case armed =>
    refine track_answered hr ho (run := runArmMarks) rfl (fun _ => rfl) fun L Q => ?_
    rw [withLinks_tracks, if_neg on, withLinks_marks, if_pos off]
    rfl
  case kept =>
    refine track_answered hr ho (run := runArmMarks) rfl (fun _ => rfl) fun L Q => ?_
    rw [withLinks_tracks, if_neg on, withLinks_marks, if_neg active]
    rfl
  case disarmed => exact track_answered hr ho (run := runDisarmMarks) rfl (fun _ => rfl) fun L Q => rfl
  case template =>
    intro i p
    have parsed : parseSetTemplate p = .ok (k, e, t) := parseSetTemplate_iff.2 ⟨⟨hoffset, hwidth, htolerance⟩, rfl⟩
    have size : p.length ≤ Config.maxPayload := by
      obtain ⟨enabled, offset, n, profile, width, tolerance, notify⟩ := t
      cases profile <;> cases width <;> cases tolerance <;> simp [p, setTemplateArgs, Config.maxPayload]
    have run : ∀ L Q, runSetTemplate l p (withLinks L Q s) =
        if t.enabled = true ∧ s.lines[t.line].cfg.track ≠ k then refuse .wrongTrack (withLinks L Q s)
        else done (withLinks L Q (setMark k { m with program := m.program.set e t } s)) := fun L Q => by
      have trackOwned : trackOwner (withLinks L Q s) k ≠ some (otherLink l) := ho
      have lineOwned : lineOwner (withLinks L Q s) t.line ≠ some (otherLink l) := hn
      simp only [runSetTemplate, parsed, withArgs, onTrack_allowed trackOwned, onLine_allowed lineOwned]
      rfl
    refine ⟨fun enabled wrong => ?_, fun fine => ?_⟩ <;>
      refine answered_of_effect s l runSetTemplate rfl hr (List.cons_ne_nil _ _) size fun L Q _ _ => (run L Q).trans ?_
    · rw [if_pos ⟨enabled, wrong⟩]
      rfl
    · rw [if_neg]
      · rfl
      · rintro ⟨enabled, wrong⟩
        rcases fine with disabled | right
        · exact absurd (enabled.symm.trans disabled) (by decide)
        · exact wrong right

end Sys2Proof.Machine
end

section
/-! SUPPORT. The statements about the lines: pulse ends, SET_LINE, profiles and forced pulses (06). -/

namespace Sys2Proof.Machine

-- One proof at a time: proofs elaborated side by side would hold a thread each, and its stack.
set_option Elab.async false

/-! ### Pulse ends (R108 to R111) -/

/-- A DISTANCE pulse of a track: its line is ON and assigned to the track (R3, R110). -/
theorem hasDistancePulse_of {u : Line} {k : TrackId} {p : Pulse} (hs : u.state = .on) (hk : u.cfg.track = k)
    (hp : u.pulse = some p) : hasDistancePulse u k = (p.finish.mode == .distance) := by
  rw [hasDistancePulse, hs, hk, hp, beq_self_eq_true, beq_self_eq_true]
  rfl

theorem hasDistancePulse_not {u : Line} {k : TrackId} (h : u.state ≠ .on ∨ u.cfg.track ≠ k) : hasDistancePulse u k = false := by
  rw [hasDistancePulse, Bool.and_eq_false_iff, Bool.and_eq_false_iff, beq_eq_false_iff_ne, beq_eq_false_iff_ne]
  exact .inl h

section
variable {s : State} {n : LineId} {k : TrackId} {p : Pulse}

/-- A DISTANCE pulse tests a change of its track against its end position (R108). -/
theorem testDistanceEnd_distance {x e : Int} {v : Travel} {m : Option Nat} (hs : s.lines[n].state = .on)
    (hk : s.lines[n].cfg.track = k) (hp : s.lines[n].pulse = some p) (hf : p.finish = .distance e v m) :
    testDistanceEnd n k x s = if ahead v e x then s else pulseOver n p s := by
  have distance : hasDistancePulse s.lines[n] k = true := by rw [hasDistancePulse_of hs hk hp, hf]; rfl
  obtain ⟨origin, finish, profile, override_, holdoff⟩ := p
  subst hf
  rw [testDistanceEnd, if_pos distance, ← endPulse_eq s n _ hp]
  simp only [hp, reaches_eq]
  cases ahead v e x <;> rfl

end

/-- Settles O36: each end by its cause, followed by the rest of the line. -/
theorem pulseEndsAreFollowedByHoldoff : Obligations.PulseEndsAreFollowedByHoldoff := by
  unfold Obligations.PulseEndsAreFollowedByHoldoff
  intro s n u
  refine ⟨fun p x on hp hf => ?_, fun p e v x on hp hf => ?_, fun h => ?_, fun h => ?_, ?_, ?_⟩
  · have ended : timePulseEnd n s = endPulse n s := by
      obtain ⟨origin, finish, profile, override_, holdoff⟩ := p
      subst hf
      simp only [timePulseEnd, show s.lines[n].state = .on from on, show s.lines[n].pulse = _ from hp]
    show Host.Outcome.next (timePulseEnd n s) = _
    rw [ended, endPulse_eq s n p hp]
  · have ended : maxOnExpiry n s = truncatePulse n .maxOn s := by
      obtain ⟨origin, finish, profile, override_, holdoff⟩ := p
      subst hf
      simp only [maxOnExpiry, show s.lines[n].state = .on from on, show s.lines[n].pulse = _ from hp]
    show Host.Outcome.next (maxOnExpiry n s) = _
    rw [ended, truncatePulse_eq s n .maxOn p hp]
  · exact congrArg _ (if_pos h)
  · exact congrArg _ (if_neg h)
  · intro k x rest hfront w
    have run : exec (.distancePulseEnd n) s = .next (testDistanceEnd n k x w) := by
      show Host.Outcome.next (distancePulseEnd n s) = _
      rw [distancePulseEnd, hfront]
      rfl
    have stays : hasDistancePulse w.lines[n] k = false → exec (.distancePulseEnd n) s = .next w := fun h => by
      rw [run, testDistanceEnd, h]
      rfl
    refine ⟨fun h => stays (hasDistancePulse_not h), fun p on hk hp => ⟨fun m hf => stays ?_, fun e v m hf => ?_⟩⟩
    · rw [hasDistancePulse_of on hk hp, hf]
      rfl
    · have tested := testDistanceEnd_distance (s := w) (n := n) (x := x) on hk hp hf
      refine ⟨fun h => ?_, fun h => ?_⟩ <;> rw [run, tested, h] <;> rfl
  · intro k reason rest hfront w
    have run : exec (.trackNoticeAtLine n) s = .next (takeTruncation n k reason w) := by
      show Host.Outcome.next (trackNoticeAtLine n s) = _
      rw [trackNoticeAtLine, hfront]
      rfl
    have stays : hasDistancePulse w.lines[n] k = false → exec (.trackNoticeAtLine n) s = .next w := fun h => by
      rw [run, takeTruncation, h]
      rfl
    refine ⟨fun h => stays (hasDistancePulse_not h), fun p on hk hp => ⟨fun m hf => stays ?_, fun e v m hf => ?_⟩⟩
    · rw [hasDistancePulse_of on hk hp, hf]
      rfl
    · have distance : hasDistancePulse w.lines[n] k = true := by rw [hasDistancePulse_of on hk hp, hf]; rfl
      rw [run, takeTruncation, if_pos distance, truncatePulse_eq w n reason p hp]

/-! ### What a command does beside the links -/

section
variable (s : State) (L : PerLink Link) (Q : PerLink Queue)

/-- A record is handed over whatever the links and queues hold. -/
theorem raiseRouted_withLinks (dest : Option LinkId) (r : Report) :
    raiseRouted dest r (withLinks L Q s) = withLinks L Q (raiseRouted dest r s) := by
  cases dest <;> rfl

/-- A record goes where the states of the links and the default route send it (R171). -/
theorem routeOwned_withLinks {t : State} (h : ∀ m, (L.at_ m).state = (linkOn t m).state) (hr : t.route = s.route)
    (owner : Option LinkId) : routeOwned (withLinks L Q s) owner = routeOwned t owner := by
  have lost : ∀ m, isLost (withLinks L Q s) m = isLost t m := fun m => by
    rw [isLost_eq, isLost_eq]
    exact congrArg (fun x => decide (x = LinkState.lost)) (h m)
  have unowned : routeUnowned (withLinks L Q s) = routeUnowned t := by
    unfold routeUnowned
    rw [lost, lost, hr]
    rfl
  cases owner with
  | none => exact unowned
  | some m =>
    show (if ((L.at_ m).state == .up) = true then some m else routeUnowned (withLinks L Q s)) = _
    rw [h m, unowned]
    rfl

/-- Where the links stand when a command runs (R144). -/
theorem states_heard {l : LinkId} (h1 : (L.at_ l).state = .up) (h2 : (L.at_ (otherLink l)).state = (linkOn s (otherLink l)).state)
    (m : LinkId) : (L.at_ m).state = (linkOn (heard l s) m).state := by
  match l, m with
  | .link0, .link0 | .link1, .link1 => exact h1
  | .link0, .link1 | .link1, .link0 => exact h2

end

/-! ### SET_LINE (R101, R102, R113, R114) -/

section
variable (s : State) (n : LineId)

/-- The checks of R101, in their order. -/
theorem lineRefusal_eq (c : LineConfig) : lineRefusal s n c =
    if c.track = s.lines[n].cfg.track then none
    else if pendingCount s n ≠ 0 then some .lineInUse
    else if s.lines[n].state = .on ∨ s.lines[n].state = .holdoff ∨ s.lines[n].state = .test then some .busy
    else none := by
  by_cases same : c.track = s.lines[n].cfg.track
  · simp only [lineRefusal, same, ne_eq, not_true_eq_false, false_and, if_true, if_false]
  · simp only [lineRefusal, same, ne_eq, not_false_eq_true, true_and, if_false]

theorem takeForcing_none (h : s.transit.forcing[n] = false) : takeForcing n s = s := by
  rw [takeForcing, h]
  rfl

theorem forces_iff (f : FaultSet) : f.forces = true ↔ f.overload = true ∨ f.stuck = true := by
  rw [FaultSet.forces, Bool.or_eq_true]

/-- The enabling of a line (R114). -/
theorem applySetLine_enables {c : LineConfig} (h : s.transit.forcing[n] = false) (hu : s.lines[n].cfg.enabled = false)
    (hc : c.enabled = true) : applySetLine n c s = setLine n { s.lines[n] with
      cfg := c
      state := if s.loads[n].latched.overload = true ∨ s.loads[n].latched.stuck = true then .fault else .off } s := by
  simp only [applySetLine, hu, hc, enableLine, takeForcing_none s n h, forces_iff]

/-- The disabling of a line (R113). -/
theorem applySetLine_disables {c : LineConfig} (hu : s.lines[n].cfg.enabled = true) (hc : c.enabled = false) :
    applySetLine n c s = disableLine n c s := by
  simp only [applySetLine, hu, hc]

/-- The disabling of a line that has neither a pulse nor a probe is told to nobody (R113). -/
theorem announceDisabling_quiet {st : LineState} (on : st ≠ .on) (test : st ≠ .test) : announceDisabling n st s = s := by
  cases st
  case on => exact absurd rfl on
  case test => exact absurd rfl test
  all_goals rfl

/-- A line that stays enabled or disabled takes the settings alone (R102). -/
theorem applySetLine_stays {c : LineConfig} (h : c.enabled = s.lines[n].cfg.enabled) :
    applySetLine n c s = setLine n { s.lines[n] with cfg := c } s := by
  unfold applySetLine
  split
  · next hu hc => rw [hu, hc] at h; cases h
  · next hu hc => rw [hu, hc] at h; cases h
  · rfl

end

/-- Settles O38: the checks of R101, then the change of the line by what it was. -/
theorem setLineConfiguresTheLine : Obligations.SetLineConfiguresTheLine := by
  unfold Obligations.SetLineConfiguresTheLine
  intro s l seq n c hr ho hlo hhi hforcing u i p refusal off heardBy
  have judged : lineRefusal s n c = refusal := lineRefusal_eq s n c
  have parsed : parseSetLine p = .ok (n, c) := parseSetLine_iff.2 ⟨⟨hlo, hhi⟩, rfl⟩
  have size : p.length ≤ Config.maxPayload := by simp [p, setLineArgs, Config.maxPayload]
  have run : ∀ L Q, runSetLine l p (withLinks L Q s) = match lineRefusal s n c with
      | some status => refuse status (withLinks L Q s)
      | none => done (applySetLine n c (withLinks L Q s)) := fun L Q => by
    have owner : lineOwner (withLinks L Q s) n ≠ some (otherLink l) := ho
    simp only [runSetLine, parsed, withArgs, onLine_allowed owner]
    rfl
  refine ⟨fun st h => ?_, fun h => ?_⟩ <;> rw [← judged] at h
  · refine answered_of_effect s l runSetLine rfl hr (List.cons_ne_nil _ _) size fun L Q _ _ => ?_
    rw [run, h]
    rfl
  · have applied : ∀ {t : State}, (∀ L Q, (∀ m, (L.at_ m).state = (linkOn (heard l s) m).state) →
        applySetLine n c (withLinks L Q s) = withLinks L Q t) → Answered i l seq p .ok [] s t := fun {t} ht =>
      answered_of_effect s l runSetLine rfl hr (List.cons_ne_nil _ _) size fun L Q h1 h2 => by
        rw [run, h, ← ht L Q (states_heard s L h1 h2)]
        rfl
    refine ⟨fun same => applied fun L Q _ => ?_, fun hu hc => applied fun L Q _ => ?_, fun hu hc on test => applied fun L Q _ => ?_,
      fun hu hc test => applied fun L Q _ => ?_, fun hu hc on => applied fun L Q states => ?_⟩
    · exact applySetLine_stays (withLinks L Q s) n same
    · exact applySetLine_enables (withLinks L Q s) n hforcing hu hc
    · rw [applySetLine_disables (withLinks L Q s) n hu hc, disableLine]
      exact announceDisabling_quiet _ n on test
    · rw [applySetLine_disables (withLinks L Q s) n hu hc, disableLine, withLinks_lines, show s.lines[n].state = .test from test]
      rfl
    · rw [applySetLine_disables (withLinks L Q s) n hu hc, disableLine, withLinks_lines, show s.lines[n].state = .on from on]
      have route := routeOwned_withLinks (t := heard l s) (setLine n off s) L Q states rfl (lineOwner s n)
      have raised : raiseLine n (.pulseTruncated n .disabled) (setLine n off (withLinks L Q s)) =
          withLinks L Q (raiseRouted (routeOwned (heard l s) (lineOwner s n)) (.pulseTruncated n .disabled) (setLine n off s)) := by
        rw [← route, ← raiseRouted_withLinks]
        rfl
      obtain ⟨q, frame⟩ := raiseRouted_frame (setLine n off s) (routeOwned (heard l s) (lineOwner s n)) (.pulseTruncated n .disabled)
      show tellLsv n .ended (raiseLine n (.pulseTruncated n .disabled) (setLine n off (withLinks L Q s))) = _
      rw [raised, frame]
      rfl

/-! ### Profiles, forced pulses and the query (R103, R104, R112, R121) -/

/-- The refusals of FORCE_LINE on a line in a state, in the order of the list of R112. -/
def forceRefusal (st : LineState) (inhibited : Bool) (policy : Policy) : Option Status :=
  if st = .disabled then some .lineOff
  else if st = .fault then some .lineFault
  else if inhibited then some .inhibited
  else if st = .holdoff ∨ st = .on ∧ policy = .reject then some .busy
  else none

/-- A line that is not refused a forced pulse is in OFF, ON or TEST (R112). -/
theorem off_of_forceRefusal {st : LineState} {inhibited : Bool} {policy : Policy} (h : forceRefusal st inhibited policy = none)
    (on : st ≠ .on) (test : st ≠ .test) : st = .off := by
  revert h on test
  cases st <;> cases inhibited <;> cases policy <;> decide

/-- FORCE_LINE on a line that the link may command: refused, or the pulse is rewritten in ON and begun in every other state (R112). -/
theorem runForceLine_allowed {s : State} {n : LineId} {w : Nat} {l : LinkId} {p : List Byte}
    (hp : parseForceLine p = .ok (n, w)) (ho : lineOwner s n ≠ some (otherLink l)) :
    runForceLine l p s = match forceRefusal s.lines[n].state s.inhibited s.lines[n].cfg.policy with
      | some status => refuse status s
      | none =>
        if s.lines[n].state = .on then done (retrigger n (forcedPulse s n w) s) else done (beginPulse n (forcedPulse s n w) s) := by
  simp only [runForceLine, hp, withArgs, onLine_allowed ho]
  generalize s.lines[n].state = st
  generalize s.inhibited = inhibited
  generalize s.lines[n].cfg.policy = policy
  cases st <;> cases inhibited <;> cases policy <;> rfl

/-- Settles O39: each command reads its operands, and FORCE_LINE goes by the state of the line. -/
theorem profilesAndForcedPulses : Obligations.ProfilesAndForcedPulses := by
  unfold Obligations.ProfilesAndForcedPulses
  intro s l seq hr
  refine ⟨fun j f h1 h2 h3 h4 h5 => ?_, fun n => ⟨?_, fun w hlo hhi ho => ?_⟩⟩
  · have parsed : parseSetProfile (0x51 :: setProfileArgs j f) = .ok (j, f) := parseSetProfile_iff.2 ⟨⟨h1, h2, h3, h4, h5⟩, rfl⟩
    refine answered_of_effect s l runSetProfile rfl hr (List.cons_ne_nil _ _) (by simp [setProfileArgs, Config.maxPayload]) fun L Q _ _ => ?_
    rw [runSetProfile, parsed]
    rfl
  · have parsed : parseLine [0x53, indexByte n] = .ok n := parseLine_iff.2 rfl
    refine answered_of_effect s l runQueryLine rfl hr (List.cons_ne_nil _ _) (by simp [Config.maxPayload]) fun L Q _ _ => ?_
    rw [runQueryLine, parsed]
    rfl
  · intro u i p pulse refusal
    have parsed : parseForceLine p = .ok (n, w) := parseForceLine_iff.2 ⟨⟨hlo, hhi⟩, rfl⟩
    have size : p.length ≤ Config.maxPayload := by simp [p, Config.maxPayload]
    have run : ∀ L Q, runForceLine l p (withLinks L Q s) = match refusal with
        | some status => refuse status (withLinks L Q s)
        | none => if u.state = .on then done (retrigger n (forcedPulse s n w) (withLinks L Q s))
            else done (beginPulse n (forcedPulse s n w) (withLinks L Q s)) := fun L Q => by
      rw [runForceLine_allowed (s := withLinks L Q s) parsed ho]
      rfl
    refine ⟨fun st h => ?_, fun h on => ?_, fun h other => ?_⟩ <;>
      refine answered_of_effect s l runForceLine rfl hr (List.cons_ne_nil _ _) size fun L Q _ _ => ?_ <;> rw [run, h]
    · rfl
    · dsimp only
      rw [if_pos on]
      rfl
    · dsimp only
      rw [if_neg other]
      by_cases test : u.state = .test
      · rw [beginPulse_test (s := withLinks L Q s) test, if_pos test]
        rfl
      · rw [beginPulse_off (s := withLinks L Q s) (off_of_forceRefusal h other test), if_neg test]
        rfl

end Sys2Proof.Machine
end

section
/-! SUPPORT. The statements about the Load Supervisor: sense events, drive views, its commands, sweeps and probes (07). -/

namespace Sys2Proof.Machine

-- One proof at a time: proofs elaborated side by side would hold a thread each, and its stack.
set_option Elab.async false

section
variable (s : State) (n : LineId)

/-! ### Judgements (R124 to R128) -/

/-- With the view ACTIVE or INACTIVE a judgement is one outside a probe. -/
theorem judge_setLoad {u : Load} (h : u.view ≠ .probe) : judge n (setLoad n u s) = judgedNow n (setLoad n u s) :=
  judge_eq _ n fun both => h (by rw [← both.1, setLoad_get])

/-- In a probe every condition but OVERCURRENT changes nothing (R126). -/
theorem judge_probe {u : Load} (h : u.view = .probe) (hs : u.sense ≠ .overcurrent) :
    judge n (setLoad n u s) = setLoad n u s := by
  simp only [judge, setLoad_get, h]
  cases hu : u.sense
  case overcurrent => exact absurd hu hs
  all_goals rfl

/-- In a probe OVERCURRENT ends it (R126). -/
theorem judge_overcurrent {u : Load} (h : u.view = .probe) (hs : u.sense = .overcurrent) :
    judge n (setLoad n u s) = probeOverload n (setLoad n u s) := by
  simp only [judge, setLoad_get, h, hs]

theorem probing_iff : probing s n = true ↔
    (s.sweep.running = true ∧ s.sweep.current = some n) ∧ s.sweep.probeTimer.isSome = true := by
  rw [probing, Bool.and_eq_true, Bool.and_eq_true, beq_iff_eq]

end

/-- Settles O40: the stored condition against the drive view. -/
theorem senseIsJudged : Obligations.SenseIsJudged := by
  unfold Obligations.SenseIsJudged
  intro s n u
  refine ⟨fun c h => congrArg _ (if_pos h), fun c h hprobe => ?_, fun x hb hv => ?_, fun h => ?_⟩
  · show Host.Outcome.next (senseEvent n c s) = _
    rw [senseEvent, if_neg h]
    refine congrArg _ (judge_eq _ n fun both => hprobe ?_)
    rw [setLoad_get] at both
    exact ⟨both.2, both.1⟩
  · show Host.Outcome.next (blankingExpiry n s) = _
    rw [blankingExpiry, hb]
    refine congrArg _ (judge_setLoad s n ?_)
    rw [show s.loads[n].view = .active from hv]
    decide
  · show Host.Outcome.next (blankingExpiry n s) = _
    unfold blankingExpiry
    split
    · next x hx => exact absurd hx (h x)
    · rfl

/-- Settles O41: each notice sets the view and is judged; a forcing takes the line to FAULT. -/
theorem driveViewFollowsTheLine : Obligations.DriveViewFollowsTheLine := by
  unfold Obligations.DriveViewFollowsTheLine
  intro s n rest u v i current
  have run : exec i s = .next (driveViewNotice n s) := rfl
  have isCurrent : ((putToLsv n rest s).sweep.running && (putToLsv n rest s).sweep.current == some n) = true ↔ current := by
    rw [Bool.and_eq_true, beq_iff_eq]
    rfl
  refine ⟨fun h => ?_, fun h => ?_, fun h hc hs => ?_, fun h hc => ?_, fun h => congrArg _ (takeForcing_none s n h),
    fun h hq => ?_⟩
  · rw [run, driveViewNotice, h]
    exact congrArg _ (judge_setLoad v n DriveView.noConfusion)
  · rw [run, driveViewNotice, h]
    exact congrArg _ (judge_setLoad v n DriveView.noConfusion)
  · rw [run, driveViewNotice, h]
    dsimp only
    rw [takeLoadNotice, if_pos (isCurrent.2 hc)]
    exact congrArg _ (judge_probe _ n rfl hs)
  · rw [run, driveViewNotice, h]
    dsimp only
    rw [takeLoadNotice, if_neg (mt isCurrent.1 hc)]
    rfl
  · intro w
    have taken := takeForcing_quiet s n h hq
    refine ⟨fun off => congrArg _ (taken.trans (if_pos off)), fun on idle => ?_⟩
    show Host.Outcome.next (takeForcing n s) = _
    rw [taken]
    dsimp only
    rw [if_neg on, if_neg (mt (probing_iff s n).1 idle), forcedLine, if_neg on]
    exact congrArg _ (judge_setLoad _ n DriveView.noConfusion)

/-! ### What the Load Supervisor does beside the links -/

section
variable {s : State} {L : PerLink Link} (Q : PerLink Queue) (n : LineId)
  (states : ∀ m, (L.at_ m).state = (linkOn s m).state)
include states

theorem learned_withLinks (kind : FaultKind) : learned n kind (withLinks L Q s) = withLinks L Q (learned n kind s) := by
  rw [← latch_eq, ← latch_eq, latch, latch, withLinks_loads]
  split
  · rfl
  · have route := routeOwned_withLinks (t := s) s L Q states rfl (lineOwner s n)
    show raiseRouted (routeOwned (withLinks L Q s) (lineOwner s n)) _ _ = _
    rw [route]
    exact raiseRouted_withLinks (setLoad n { s.loads[n] with latched := s.loads[n].latched.add kind } s) L Q _ _

omit states in
theorem forcedOut_withLinks : forcedOut n (withLinks L Q s) = withLinks L Q (forcedOut n s) := by
  unfold forcedOut
  rw [withLinks_lines]
  split <;> rfl

/-- A judgement looks at the states of the links alone, for its report (R124 to R128). -/
theorem judgedNow_withLinks : judgedNow n (withLinks L Q s) = withLinks L Q (judgedNow n s) := by
  unfold judgedNow
  simp only [withLinks_loads, learned_withLinks Q n states, forcedOut_withLinks]
  split
  · rfl
  · split
    · rfl
    · split <;> rfl

/-- The end of a sweep looks at the states of the links alone, for its report (R137). -/
theorem raiseSweepDone_withLinks : raiseSweepDone (withLinks L Q s) = withLinks L Q (raiseSweepDone s) := by
  have unowned : ∀ r, raiseUnowned r (withLinks L Q s) = withLinks L Q (raiseUnowned r s) := fun r => by
    have route : routeUnowned (withLinks L Q s) = routeUnowned s := routeOwned_withLinks (t := s) s L Q states rfl none
    rw [raiseUnowned, route]
    exact raiseRouted_withLinks s L Q _ r
  have lost : ∀ m, isLost (withLinks L Q s) m = isLost s m := fun m => by
    rw [isLost_eq, isLost_eq]
    exact congrArg (fun x => decide (x = LinkState.lost)) (states m)
  rw [raiseSweepDone, raiseSweepDone, withLinks_sweep]
  cases s.sweep.starter with
  | link l =>
    dsimp only
    rw [lost]
    split
    · exact unowned _
    · rfl
  | absent => exact unowned _
  | periodic => exact unowned _

theorem endSweep_withLinks : endSweep (withLinks L Q s) = withLinks L Q (endSweep s) :=
  raiseSweepDone_withLinks Q states
    (s := setSweep { s.sweep with running := false, current := none, probeTimer := none, request := none } s)

omit states in
/-- The visit of one line (R134). -/
theorem visitLines_cons (t : State) (m : LineId) (ns : List LineId) : visitLines (m :: ns) t =
    let u := setSweep { t.sweep with current := some m } t
    if t.lines[m].state = .disabled then visitLines ns (setResult m .notEnabled u)
    else if t.loads[m].masked.openLoad then visitLines ns (setResult m .skippedMasked u)
    else setSweep { u.sweep with request := some m } u := rfl

/-- The visits of a sweep look at the states of the links alone, for its report (R134, R137). -/
theorem visitLines_withLinks (ns : List LineId) : visitLines ns (withLinks L Q s) = withLinks L Q (visitLines ns s) := by
  induction ns generalizing s with
  | nil => exact endSweep_withLinks Q states
  | cons m ns ih =>
    rw [visitLines_cons, visitLines_cons, withLinks_lines, withLinks_loads]
    dsimp only
    by_cases off : s.lines[m].state = .disabled
    · rw [if_pos off, if_pos off]
      exact ih (s := setResult m .notEnabled (setSweep { s.sweep with current := some m } s)) states
    · by_cases masked : s.loads[m].masked.openLoad = true
      · rw [if_neg off, if_pos masked, if_neg off, if_pos masked]
        exact ih (s := setResult m .skippedMasked (setSweep { s.sweep with current := some m } s)) states
      · rw [if_neg off, if_neg masked, if_neg off, if_neg masked]
        rfl

end

/-! ### The commands of the Load Supervisor (R129 to R133, R138) -/

section
variable (s : State) (n : LineId)

theorem anyKept_iff (f : FaultSet) : anyKept f = true ↔ f ≠ ⟨false, false, false⟩ := by
  obtain ⟨a, b, c⟩ := f
  cases a <;> cases b <;> cases c <;> decide

/-- The kinds that stay latched: those not requested, and those kept (R131). -/
theorem minus_minus (f g h : FaultSet) : f.minus (g.minus h) =
    ⟨f.openLoad && (!g.openLoad || (g.meet h).openLoad), f.overload && (!g.overload || (g.meet h).overload),
      f.stuck && (!g.stuck || (g.meet h).stuck)⟩ := by
  have one : ∀ a b c : Bool, (a && !(b && !c)) = (a && (!b || (b && c))) := by decide
  simp only [FaultSet.minus, FaultSet.meet, one]

/-- A line in FAULT without OVERLOAD and STUCK latched is released (R115, R129). -/
theorem releaseLine_setLoad (u : Load) : releaseLine n (setLoad n u s) =
    if s.lines[n].state = .fault ∧ u.latched.overload = false ∧ u.latched.stuck = false then
      setLine n { s.lines[n] with state := .off } (setLoad n u s)
    else setLoad n u s := by
  have none_forces : u.latched.forces = false ↔ u.latched.overload = false ∧ u.latched.stuck = false := by
    rw [FaultSet.forces, Bool.or_eq_false_iff]
  simp only [releaseLine, setLoad_get, none_forces]
  rfl

theorem releaseLine_loads : (releaseLine n s).loads = s.loads := by
  unfold releaseLine
  split <;> rfl

end

/-- Settles O42: each command reads its operands and sets the items of its line. -/
theorem supervisionCommandsActOnTheLine : Obligations.SupervisionCommandsActOnTheLine := by
  unfold Obligations.SupervisionCommandsActOnTheLine
  intro s l seq hr
  refine ⟨?_, fun n ks ho hforcing hks => ?_, fun ms hms => ?_⟩
  · refine answered_of_effect s l runQuerySweep rfl hr (List.cons_ne_nil _ _) (by simp [Config.maxPayload]) fun L Q _ _ => ?_
    rw [runQuerySweep, parseNone_code]
    rfl
  · intro u kept left v w i p
    have parsed : parseClearLineFault p = .ok (n, ks) := parseClearLineFault_iff.2 ⟨hks, rfl⟩
    have cleared : u.latched.minus (ks.minus (presentKinds u)) = left := minus_minus ..
    have run : ∀ L Q, runClearLineFault l p (withLinks L Q s) =
        if anyKept kept then ⟨.stillPresent, [kept.code, left.code], withLinks L Q w⟩
        else ⟨.ok, [left.code], withLinks L Q w⟩ := fun L Q => by
      have owner : lineOwner (withLinks L Q s) n ≠ some (otherLink l) := ho
      have cleared : clearKinds n ks (withLinks L Q s) = setLoad n { u with latched := left } (withLinks L Q s) := by
        rw [← cleared]
        rfl
      have released : releaseLine n (clearKinds n ks (withLinks L Q s)) = withLinks L Q w := by
        rw [cleared, releaseLine_setLoad]
        by_cases free : s.lines[n].state = .fault ∧ left.overload = false ∧ left.stuck = false
        · have out : w = setLine n { s.lines[n] with state := .off } v := if_pos free
          rw [out]
          exact if_pos free
        · have kept : w = v := if_neg free
          rw [kept]
          exact if_neg free
      have latched : (releaseLine n (clearKinds n ks (withLinks L Q s))).loads[n].latched = left := by
        rw [releaseLine_loads, cleared, setLoad_get]
      simp only [runClearLineFault, parsed, withArgs, onLine_allowed owner, takeForcing_none (withLinks L Q s) n hforcing]
      rw [latched, released]
      rfl
    refine ⟨fun h => ?_, fun h => ?_⟩ <;>
      refine answered_of_effect s l runClearLineFault rfl hr (List.cons_ne_nil _ _) (by simp [Config.maxPayload]) fun L Q _ _ => ?_
    · rw [run, if_neg fun any => (anyKept_iff kept).1 any h]
    · rw [run, if_pos ((anyKept_iff kept).2 h)]
  · intro w
    refine ⟨?_, fun n masks b ho hb hview => ?_⟩
    · have parsed : parseSetSupervision (0x55 :: le 2 ms) = .ok (ms, none) := parseSetSupervision_period.2 ⟨hms, rfl⟩
      refine answered_of_effect s l runSetSupervision rfl hr (List.cons_ne_nil _ _) (by simp [Config.maxPayload]) fun L Q _ _ => ?_
      rw [runSetSupervision, parsed]
      rfl
    · intro a
      have parsed : parseSetSupervision (0x55 :: a) = .ok (ms, some ⟨n, masks, b⟩) :=
        parseSetSupervision_entry.2 ⟨⟨hms, hb⟩, rfl⟩
      refine answered_of_effect s l runSetSupervision rfl hr (List.cons_ne_nil _ _) (by simp [a,
        Config.maxPayload]) fun L Q h1 h2 => ?_
      have owner : lineOwner (withLinks L Q s) n ≠ some (otherLink l) := ho
      have judged := judgedNow_withLinks (s := heard l (setLoad n { s.loads[n] with masked := masks, blankTime := b } w)) Q n
        (states_heard s L h1 h2)
      have here := judge_setLoad (setPeriod ms (withLinks L Q s)) n
        (u := { s.loads[n] with masked := masks, blankTime := b }) hview
      rw [runSetSupervision, parsed]
      simp only [withArgs, onLine_allowed owner]
      exact congrArg done (here.trans judged)

/-! ### Sweeps (R116, R133, R134) -/

/-- Settles O43: a start and each visit go on to the first line that takes a probe start. -/
theorem sweepVisitsTheLines : Obligations.SweepVisitsTheLines := by
  unfold Obligations.SweepVisitsTheLines
  refine ⟨fun s l seq hr => ?_, fun s => ?_, fun s n => ?_⟩
  · intro i
    have run : ∀ L Q, runStartSweep l [0x56] (withLinks L Q s) =
        if s.sweep.running then refuse .busy (withLinks L Q s)
        else if s.inhibited then refuse .inhibited (withLinks L Q s)
        else done (visitLines allLines (withLinks L Q (swept (.link l) (heard l s)))) := fun L Q => by
      rw [runStartSweep, parseNone_code]
      rfl
    refine ⟨fun running => ?_, fun idle inhibited => ?_, fun idle free => ⟨_, visitLines_wentOn _ 0 (Nat.zero_le _), ?_⟩⟩ <;>
      refine answered_of_effect s l runStartSweep rfl hr (List.cons_ne_nil _ _) (by simp [Config.maxPayload]) fun L Q h1 h2 => ?_ <;>
      rw [run]
    · rw [if_pos running]
      rfl
    · rw [if_neg (Bool.eq_false_iff.1 idle), if_pos inhibited]
      rfl
    · rw [if_neg (Bool.eq_false_iff.1 idle), if_neg (Bool.eq_false_iff.1 free),
        visitLines_withLinks (s := swept (.link l) (heard l s)) Q (states_heard s L h1 h2)]
      rfl
  · intro v
    refine ⟨fun h => ?_, fun h busy => ?_, fun h idle free => ⟨_, visitLines_wentOn _ 0 (Nat.zero_le _), ?_⟩⟩ <;>
      show Host.Outcome.next (periodTimerExpiry s) = _
    · rw [periodTimerExpiry, h]
    · obtain ⟨x, hx⟩ := Option.isSome_iff_exists.1 h
      rw [periodTimerExpiry, hx]
      exact congrArg _ (if_pos (by rw [Bool.or_eq_true]; exact busy))
    · obtain ⟨x, hx⟩ := Option.isSome_iff_exists.1 h
      rw [periodTimerExpiry, hx]
      exact congrArg _ (if_neg (by rw [Bool.or_eq_true, not_or, Bool.not_eq_true, Bool.not_eq_true]; exact ⟨idle, free⟩))
  · have run : exec (.probeStart n) s = .next (probeStart n s) := rfl
    refine ⟨fun h => ?_, fun h hforcing => ?_⟩
    · rw [run, probeStart, if_neg h]
    · intro v
      have taken : takeForcing n (setSweep { s.sweep with request := none } s) = v := takeForcing_none v n hforcing
      refine ⟨fun off free => ?_, fun busy => ⟨_, continueSweep_wentOn _ n, ?_⟩⟩ <;> rw [run, probeStart, if_pos h, taken]
      · exact congrArg _ (if_pos ⟨off, free⟩)
      · refine congrArg _ (if_neg ?_)
        rintro ⟨off, free⟩
        rcases busy with other | inhibited
        · exact other off
        · rw [show v.inhibited = true from inhibited] at free
          cases free

/-! ### Probes (R115, R116, R126, R135, R136) -/

section
variable (s : State) (n : LineId)

/-- The end of a probe at its line does not look at the drive view, and the other way round. -/
theorem setView_backToOff (v : DriveView) : setView n v (backToOff n s) = backToOff n (setView n v s) := by
  unfold backToOff
  split
  · next h => rw [if_pos (show (setView n v s).lines[n].state = .test from h)]; rfl
  · next h => rw [if_neg (show ¬(setView n v s).lines[n].state = .test from h)]

theorem setLoad_setLoad (u u' : Load) : setLoad n u (setLoad n u' s) = setLoad n u s := by simp [setLoad]

theorem raiseLine_setLoad (u : Load) (r : Report) : raiseLine n r (setLoad n u s) = setLoad n u (raiseLine n r s) := by
  show raiseRouted (routeOwned s (lineOwner s n)) _ _ = setLoad n u (raiseRouted (routeOwned s (lineOwner s n)) _ _)
  unfold raiseRouted
  split <;> rfl

theorem raiseLine_setLine (u : Line) (r : Report) : raiseLine n r (setLine n u s) = setLine n u (raiseLine n r s) := by
  show raiseRouted (routeOwned s (lineOwner s n)) _ _ = setLine n u (raiseRouted (routeOwned s (lineOwner s n)) _ _)
  unfold raiseRouted
  split <;> rfl

/-- Latching does not look at the drive view. -/
theorem setView_learned (kind : FaultKind) (v : DriveView) :
    setView n v (learned n kind s) = learned n kind (setView n v s) := by
  have latched : (setView n v s).loads[n] = { s.loads[n] with view := v } := setLoad_get ..
  rw [← latch_eq, ← latch_eq, latch, latch, latched]
  split
  · rfl
  · rw [raiseLine_setLoad, raiseLine_setLoad, setView, setView, setLoad_get, setLoad_setLoad, raiseLine_setLoad,
    setLoad_setLoad]

/-- Latching does not look at the line. -/
theorem backToOff_learned (kind : FaultKind) : backToOff n (learned n kind s) = learned n kind (backToOff n s) := by
  have lines : (learned n kind s).lines = s.lines := (learned_frame s n kind).1
  have moved : ∀ u, setLine n u (learned n kind s) = learned n kind (setLine n u s) := fun u => by
    rw [← latch_eq, ← latch_eq, latch, latch, setLine_loads]
    split
    · rfl
    · exact (raiseLine_setLine (setLoad n { s.loads[n] with latched := s.loads[n].latched.add kind } s) n u _).symm
  unfold backToOff
  rw [lines]
  split
  · exact moved _
  · rfl

/-- Latching keeps the condition. -/
theorem learned_sense (kind : FaultKind) : (learned n kind s).loads[n].sense = s.loads[n].sense := by
  rw [← latch_eq, latch]
  split
  · rfl
  · rw [raiseLine_setLoad, setLoad_get]

theorem backToOff_loads : (backToOff n s).loads = s.loads := by
  unfold backToOff
  split <;> rfl

/-- With the view set ACTIVE or INACTIVE a judgement is one outside a probe. -/
theorem judge_setView {v : DriveView} (h : v ≠ .probe) : judge n (setView n v s) = judgedNow n (setView n v s) :=
  judge_setLoad s n h

/-- With the view INACTIVE every condition but STUCK_ON changes nothing (R127). -/
theorem judge_inactive (h : s.loads[n].sense ≠ .stuckOn) : judge n (setView n .inactive s) = setView n .inactive s := by
  rw [setView]
  simp only [judge, setLoad_get]
  cases hs : s.loads[n].sense
  case stuckOn => exact absurd hs h
  all_goals rfl

/-- The probe ends with OPEN, which is latched (R135). -/
theorem finishProbe_noLoad (h : s.loads[n].sense = .noLoad) :
    finishProbe n s = continueSweep n (learned n .openLoad (backToOff n (probeDone n .openLoad s))) := by
  have sense : ((backToOff n (learned n .openLoad (setResult n .openLoad (stopProbe s)))).loads[n]).sense ≠ .stuckOn := by
    rw [backToOff_loads, learned_sense]
    exact ne_of_eq_of_ne h SenseCond.noConfusion
  have still := judge_inactive _ n sense
  rw [finishProbe]
  simp only [show (stopProbe s).loads[n].sense = .noLoad from h, if_true, latch_eq]
  show continueSweep n (judge n (setView n .inactive (backToOff n _))) = _
  rw [still, backToOff_learned, setView_learned, setView_backToOff]
  rfl

/-- The probe ends with PASS, and a standing STUCK_ON is judged (R127, R135). -/
theorem finishProbe_pass (h : s.loads[n].sense ≠ .noLoad) :
    finishProbe n s = continueSweep n (judgedNow n (backToOff n (probeDone n .pass s))) := by
  rw [finishProbe]
  simp only [show ¬(stopProbe s).loads[n].sense = .noLoad from h, if_false]
  show continueSweep n (judge n (setView n .inactive (backToOff n (setResult n .pass (stopProbe s))))) = _
  rw [judge_setView _ n DriveView.noConfusion, setView_backToOff]
  rfl

/-- OVERLOAD ends a probe from any drive view and any moment of its timer (R135). -/
theorem overloaded_probing (x : Option Nat) (v : DriveView) :
    overloaded n (setView n v (setSweep { s.sweep with probeTimer := x } s)) = overloaded n s := by
  have done : probeDone n .overload (setView n v (setSweep { s.sweep with probeTimer := x } s)) = probeDone n .overload s := by
    simp only [probeDone, setView, setLoad_get, setLoad_setLoad]
    simp [setLoad]
  have masked : (setView n v (setSweep { s.sweep with probeTimer := x } s)).loads[n].masked = s.loads[n].masked := by
    rw [setView, setLoad_get]
    rfl
  rw [overloaded, done, masked]
  rfl

theorem probeResult_mem (i : Fin 4) : probeResult i ∈ [SweepResult.pass, .openLoad, .overload, .skippedBusy] := by
  fin_cases i <;> decide

/-- The view after an abandoned probe (R124). -/
theorem viewAfterAbandon_eq (cause : Abandon) : viewAfterAbandon cause = if cause = .pulse then .active else .inactive := by
  cases cause <;> rfl

theorem viewAfterAbandon_ne (cause : Abandon) : viewAfterAbandon cause ≠ .probe := by
  cases cause <;> decide

/-- The LSV takes the abandonment of the probe in progress: the sweep goes on, or is aborted by the inhibit (R136). -/
theorem takeAbandoned_probing (cause : Abandon) (h : probing s n = true) :
    let w := judgedNow n (setView n (viewAfterAbandon cause) (stopProbe (setResult n .skippedBusy s)))
    (cause ≠ .inhibit → takeAbandoned n cause s = continueSweep n w) ∧ (cause = .inhibit → takeAbandoned n cause s = abortSweep w) := by
  intro w
  have judged := judge_setView (stopProbe (setResult n .skippedBusy s)) n (viewAfterAbandon_ne cause)
  rw [takeAbandoned, if_pos h]
  simp only [judged]
  cases cause
  case inhibit => exact ⟨fun no => absurd rfl no, fun _ => rfl⟩
  all_goals exact ⟨fun _ => rfl, fun no => Abandon.noConfusion no⟩

end

/-- Settles O44: the ends of a probe, each followed by the rest of the sweep. -/
theorem probesEndWithTheirResult : Obligations.ProbesEndWithTheirResult := by
  unfold Obligations.ProbesEndWithTheirResult
  refine ⟨fun s n running current timer view => ?_, fun s n rest running current h sense => ?_,
    fun s n cause rest h idle => ?_, fun s => ?_⟩
  · have isProbing : probing s n = true := (probing_iff s n).2 ⟨⟨running, current⟩, timer⟩
    refine ⟨fun hq hs => ?_, fun hs => ?_, fun hq hforcing on => ?_, fun cause rest h => ?_⟩
    · have run : exec .probeTimerExpiry s = .next (finishProbe n s) := by
        show Host.Outcome.next (probeTimerExpiry s) = _
        rw [probeTimerExpiry, current]
        dsimp only
        rw [if_pos isProbing, takeAllLoadNotices_nil s n hq, if_pos isProbing, if_neg hs]
      by_cases noLoad : s.loads[n].sense = .noLoad
      · rw [if_pos noLoad, run, finishProbe_noLoad s n noLoad]
        exact ⟨_, rfl, continueSweep_wentOn _ n⟩
      · rw [if_neg noLoad, run, finishProbe_pass s n noLoad]
        exact ⟨_, rfl, continueSweep_wentOn _ n⟩
    · refine ⟨_, ?_, continueSweep_wentOn _ n⟩
      show Host.Outcome.next (senseEvent n .overcurrent s) = _
      rw [senseEvent, if_neg hs]
      exact congrArg _ ((judge_overcurrent (setSensePin n .overcurrent s) n (u := { s.loads[n] with sense := .overcurrent }) view
        rfl).trans (probeOverload_probing _ n isProbing))
    · refine ⟨forcedResult (putForcing n false s) n, probeResult_mem _, _, ?_, continueSweep_wentOn _ n⟩
      show Host.Outcome.next (takeForcing n s) = _
      rw [takeForcing_quiet s n hforcing hq]
      dsimp only
      rw [if_neg on, if_pos isProbing, forcedLine, if_neg on]
      exact congrArg (fun t => Host.Outcome.next (continueSweep n t)) (judge_setLoad _ n DriveView.noConfusion)
    · intro v w
      have run : exec (.abandonment n) s = .next (takeAbandoned n cause v) := by
        show Host.Outcome.next (abandonment n s) = _
        rw [abandonment, h]
        rfl
      obtain ⟨goes, aborts⟩ := takeAbandoned_probing v n cause isProbing
      rw [viewAfterAbandon_eq] at goes aborts
      refine ⟨fun hc => ⟨_, run.trans (congrArg _ (goes hc)), continueSweep_wentOn _ n⟩, fun hc => ?_⟩
      rw [run, aborts hc, abortSweep, endSweep_eq]
      rfl
  · have run : exec (.driveViewNotice n) s = .next (takeLoadNotice n .probing (putToLsv n rest s)) := by
      show Host.Outcome.next (driveViewNotice n s) = _
      rw [driveViewNotice, h]
    have isCurrent : ((putToLsv n rest s).sweep.running && (putToLsv n rest s).sweep.current == some n) = true := by
      rw [Bool.and_eq_true, beq_iff_eq]
      exact ⟨running, current⟩
    refine ⟨_, ?_, continueSweep_wentOn _ n⟩
    rw [run, takeLoadNotice, if_pos isCurrent, ← overloaded_probing _ n (some (s.now + 20)) .probe]
    refine congrArg _ ((judge_overcurrent (setSweep { s.sweep with probeTimer := some (s.now + 20) } (putToLsv n rest s)) n
      (u := { s.loads[n] with view := .probe }) rfl sense).trans (probeOverload_probing _ n ((probing_iff _ n).2 ?_)))
    exact ⟨⟨running, current⟩, rfl⟩
  · have isProbing : ¬probing (putToLsv n rest s) n = true := by
      rw [probing_iff]
      rintro ⟨⟨running, current⟩, timer⟩
      rcases idle with stopped | other | done
      · exact absurd (running.symm.trans stopped) (by decide)
      · exact other current
      · rw [show (putToLsv n rest s).sweep.probeTimer = none from done] at timer
        cases timer
    show Host.Outcome.next (abandonment n s) = _
    rw [abandonment, h, ← viewAfterAbandon_eq]
    dsimp only
    rw [takeAbandoned, if_neg isProbing, judge_setView _ n (viewAfterAbandon_ne cause)]
    rfl
  · intro v aborted
    have run : exec .abortByInhibit s = .next (abortByInhibit s) := rfl
    refine ⟨fun h => ?_, fun h idle => ?_, fun n h running current hq => ?_⟩
    · rw [run, abortByInhibit, h]
      rfl
    · rw [run, abortByInhibit, if_pos h]
      exact congrArg _ (if_neg (Bool.eq_false_iff.1 idle))
    · have abort : exec .abortByInhibit s = .next (abortSweep (if probing v n then
          judge n (setView n .inactive (endProbeAtLine n (stopProbe (setResult n .skippedBusy v)))) else v)) := by
        have runs : v.sweep.running = true := running
        rw [run, abortByInhibit, if_pos h]
        refine congrArg _ ((if_pos runs).trans ?_)
        show abortByAssertion v = _
        simp only [abortByAssertion, show v.sweep.current = some n from current, takeAllLoadNotices_nil v n hq, runs, if_true]
      refine ⟨fun stopped => ?_, fun timer => ?_⟩
      · have idle : ¬probing v n = true := by
          rw [probing_iff]
          rintro ⟨-, timer⟩
          rw [show v.sweep.probeTimer = none from stopped] at timer
          cases timer
        rw [abort, if_neg idle, abortSweep, endSweep_eq]
        rfl
      · have ended : setView n .inactive (endProbeAtLine n (stopProbe (setResult n .skippedBusy v))) =
            backToOff n (probeDone n .skippedBusy v) := setView_backToOff ..
        rw [abort, if_pos ((probing_iff v n).2 ⟨⟨running, current⟩, timer⟩), judge_setView _ n DriveView.noConfusion,
          abortSweep,
          endSweep_eq, ended]
        rfl

end Sys2Proof.Machine
end

section
/-! SUPPORT. The statement about received bytes: the receiver takes them, and LINK1 shifts one out for each (08). -/

namespace Sys2Proof.Machine

-- One proof at a time: proofs elaborated side by side would hold a thread each, and its stack.
set_option Elab.async false

section
variable (s : State) (l : LinkId)

/-! ### What the choice of LINK0 leaves of LINK1 -/

theorem kick_link1 : linkOn (kick s) .link1 = linkOn s .link1 := linkOn_kick_of_held s .link1 (.inl rfl)

theorem kick_queue1 : queueOn (kick s) .link1 = queueOn s .link1 := by
  obtain ⟨L, Q, h, -, -⟩ := pump_frame s .link0
  rw [kick, h]
  rfl

theorem kick_pins : (kick s).pins = s.pins := (device_fields (kick_device s)).2.2.2.2.2.2.2.2.2.2.2.2.1

theorem kick_now : (kick s).now = s.now := (device_fields (kick_device s)).2.2.2.2.2.2.2.2.2.2.2.2.2.1

theorem kick_receiver : (linkOn (kick s) l).receiver = (linkOn s l).receiver := (apart_fields (kick_link s l)).2.1

theorem kick_withLinks : ∃ L Q, kick s = withLinks L Q s := ⟨_, _, eq_withLinks (kick_device s)⟩

/-- The choice of LINK0 beside a change of CS1N. -/
theorem selectLink1_settled (b : Bool) : Settled (selectLink1 b s) (selectLink1 b (kick s)) := by
  have device : (selectLink1 b (kick s)).device = (selectLink1 b s).device := by
    obtain ⟨L, Q, e⟩ := kick_withLinks s
    rw [e]
    rfl
  exact ⟨kick_link s, kick_queue s, device⟩

theorem setLink_linkOn : setLink l (linkOn s l) s = s := by
  cases s
  cases l <;> rfl

theorem setLink_setLink (u v : Link) : setLink l u (setLink l v s) = setLink l u s := by
  cases s
  cases l <;> rfl

/-! ### A byte at the receiver (R143) -/

/-- A frame that is not complete is left in the receiver (R143). -/
theorem judgeReceiver_unfinished (h : Unfinished (linkOn s l).receiver) : judgeReceiver l s = s := by
  have kept : ∀ bs, (linkOn s l).receiver = bs → setReceiver l bs s = s := fun bs hbs => by
    rw [setReceiver, ← hbs]
    exact setLink_linkOn s l
  have incomplete : ∀ rest, (linkOn s l).receiver = 0xC3 :: rest → reception (0xC3 :: rest) = .incomplete →
      judgeReceiver l s = s := fun rest hbs hr => by
    rw [judgeReceiver, hbs, rescan, if_pos (show (0xC3 : Byte) = syncByte from rfl), hr]
    exact kept _ hbs
  rcases h with h | h | ⟨len, rest, h, hlo, hhi, hshort⟩
  · rw [judgeReceiver, h]
    exact kept _ h
  · exact incomplete [] h rfl
  · refine incomplete _ h ?_
    rw [reception, if_neg (by simp only [Config.maxPayload]; omega), if_neg (by omega)]

/-- A received byte joins the frame begun, or is passed over while HUNTING unless it is SYNC (R143). -/
theorem takeByte_unfinished (b : Byte) (h : Unfinished (linkOn s l).receiver) : takeByte l b s =
    setReceiver l (if (linkOn s l).receiver = [] ∧ b ≠ 0xC3 then [] else (linkOn s l).receiver ++ [b]) s := by
  simp only [takeByte, judgeReceiver_unfinished s l h]
  cases hr : (linkOn s l).receiver with
  | nil =>
    have hunting : setReceiver l [] s = s := by
      rw [setReceiver, ← hr]
      exact setLink_linkOn s l
    by_cases hb : b = 0xC3
    · subst hb
      rfl
    · show (if b = syncByte then setReceiver l [b] s else s) = setReceiver l (if [] = [] ∧ b ≠ 0xC3 then [] else [] ++ [b]) s
      rw [if_neg (show ¬b = syncByte from hb), if_pos ⟨rfl, hb⟩, hunting]
  | cons x xs =>
    show setReceiver l (x :: xs ++ [b]) s = setReceiver l (if x :: xs = [] ∧ b ≠ 0xC3 then [] else x :: xs ++ [b]) s
    rw [if_neg fun both => List.cons_ne_nil x xs both.1]

/-! ### When LINK1 has a frame to send (R149) -/

/-- A link that sends none can choose a frame: a pending reply, or a record that no reply holds back (R148). -/
def canChoose (u : Link) (q : Queue) : Bool := u.replyPending || (!u.holdReports && q.offer.isSome)

theorem pump_link1_isSome (h : (linkOn s .link1).outbound = none) :
    (linkOn (pump .link1 s) .link1).outbound.isSome = canChoose (linkOn s .link1) (queueOn s .link1) := by
  have free : baudHolds s .link1 = false := rfl
  simp only [pump, h, free, canChoose, Option.isSome_none, Bool.or_self, Bool.false_eq_true, if_false]
  cases hp : (linkOn s .link1).replyPending with
  | true => simp
  | false =>
    cases hh : (linkOn s .link1).holdReports with
    | true => simp [h]
    | false =>
      simp only [chooseReport]
      cases ho : (queueOn s .link1).offer with
      | none => simp [h]
      | some x => simp

/-- Whether LINK1 has a frame to send, by its link interface and its queue: one partly sent, or one that it can choose once the
frame sent to its last byte has ended. -/
def hasFrame (u : Link) (q : Queue) : Bool :=
  match u.outbound with
  | none => canChoose u q
  | some o =>
    if o.sent = o.bytes.length then
      match o.kind with
      | .reply => canChoose { u with holdReports := u.holdReports && !(u.current.map fun c => c.frame.resumes).getD false } q
      | .report seq => canChoose u (q.sent seq 0)
    else true

/-- The offer of a queue does not depend on its resend timer. -/
theorem sent_offer_isSome (q : Queue) (seq : Byte) (x y : Nat) : (q.sent seq x).offer.isSome = (q.sent seq y).offer.isSome := by
  unfold Queue.sent
  split
  · unfold Queue.offer Queue.inFlight
    dsimp only
    split
    · rfl
    · split
      · rw [Option.isSome_map, Option.isSome_map]
      · rfl
  · rfl

/-! ### The end of a reply (R146, R152) -/

/-- The next command changes neither what a link sends nor what it holds back (R146). -/
theorem promoteLink_rest (u : Link) : (promoteLink u).outbound = u.outbound ∧ (promoteLink u).replyPending = u.replyPending ∧
    (promoteLink u).holdReports = u.holdReports := by
  unfold promoteLink
  split <;> exact ⟨rfl, rfl, rfl⟩

theorem releaseBaud_linkOn (m : LinkId) : linkOn (releaseBaud l s) m = linkOn s m := by
  unfold releaseBaud
  split <;> rfl

theorem releaseBaud_setLink (u : Link) : releaseBaud l (setLink l u s) = setLink l u (releaseBaud l s) := by
  unfold releaseBaud
  rw [setLink_baud]
  split <;> rfl

/-- Without a reset wait the end of a command makes the next frame current (R146). -/
theorem endCurrent_calm (h : (linkOn s l).resetWait = false) :
    endCurrent l s = setLink l (promoteLink { linkOn s l with current := none }) (releaseBaud l s) := by
  have calm : ¬(linkOn (releaseBaud l s) l).resetWait = true := by
    rw [releaseBaud_linkOn, h]
    decide
  rw [endCurrent, if_neg calm, promote, linkOn_setLink_same, setLink_setLink, releaseBaud_linkOn]

/-- Without a reset wait the end of a reply ends its command and makes the next frame current (R146). -/
theorem finishReply_calm (h : (linkOn s l).resetWait = false) :
    finishReply l s = setLink l
      (promoteLink { linkOn s l with
        outbound := none, current := none
        holdReports := (linkOn s l).holdReports && !((linkOn s l).current.map fun c => c.frame.resumes).getD false })
      (releaseBaud l s) := by
  have calm : ∀ u : Link, u.resetWait = (linkOn s l).resetWait →
      endCurrent l (setLink l u s) = setLink l (promoteLink { u with current := none }) (releaseBaud l s) := fun u hu => by
    rw [endCurrent_calm _ l (by rw [linkOn_setLink_same, hu, h]), linkOn_setLink_same, releaseBaud_setLink, setLink_setLink]
  rw [finishReply]
  cases (linkOn s l).current <;> exact calm _ rfl

/-- ATTN1 by what LINK1 holds, but for a reset that is due (R149). -/
theorem attn1_eq (h : resetDue (linkOn s .link1) = false) : attn1 s = hasFrame (linkOn s .link1) (queueOn s .link1) := by
  unfold attn1 finishShifted hasFrame
  cases ho : (linkOn s .link1).outbound with
  | none => exact pump_link1_isSome s ho
  | some o =>
    dsimp only
    by_cases hl : o.sent = o.bytes.length
    · rw [if_pos hl, if_pos hl, finishOutbound]
      cases hk : o.kind with
      | report seq =>
        refine (pump_link1_isSome (finishReport .link1 seq s) rfl).trans ?_
        exact congrArg (fun b => _ || (_ && b)) (sent_offer_isSome (queueOn s .link1) seq _ 0)
      | reply =>
        have calm : (linkOn s .link1).resetWait = false := by
          rw [resetDue, ho] at h
          simpa [hk, hl] using h
        rw [finishReply_calm s .link1 calm]
        refine (pump_link1_isSome _ ?_).trans ?_
        · rw [linkOn_setLink_same, (promoteLink_rest _).1]
        · rw [linkOn_setLink_same, canChoose, (promoteLink_rest _).2.1, (promoteLink_rest _).2.2, canChoose]
          have queue : queueOn (releaseBaud .link1 s) .link1 = queueOn s .link1 := by
            unfold releaseBaud
            split <;> rfl
          rw [queueOn_setLink, queue]
    · rw [if_neg hl, if_neg hl]
      simp [pump, ho]

/-! ### The byte that LINK1 shifts out (R142, R149) -/

/-- LINK1 presents its next byte; the choice of LINK0 behind it leaves ATTN1 as it was. -/
theorem attn1_setSyncOut (c : Bool) (h : resetDue (linkOn s .link1) = false) : attn1 (setSyncOut c s) = attn1 s := by
  rw [attn1_eq _ h, attn1_eq _ (by rw [setSyncOut, linkOn_setLink_same]; exact h), setSyncOut, linkOn_setLink_same]
  rfl

theorem attn1_kick (h : resetDue (linkOn s .link1) = false) : attn1 (kick s) = attn1 s := by
  rw [attn1_eq _ h, attn1_eq _ (by rw [kick_link1]; exact h), kick_link1, kick_queue1]

/-- A frame that is not shifted out to its last byte does not end (R149). -/
theorem finishShifted_within {o : Outbound} (ho : (linkOn s .link1).outbound = some o) (h : o.sent < o.bytes.length) :
    finishShifted s = s := by
  simp only [finishShifted, ho, if_neg h.ne]

theorem finishShifted_none (ho : (linkOn s .link1).outbound = none) : finishShifted s = s := by
  simp only [finishShifted, ho]

/-- LINK1 shifts out the next byte of its frame (R149). -/
theorem shiftOut_some {o : Outbound} (ho : (linkOn s .link1).outbound = some o) :
    shiftOut s = setLink .link1 { linkOn s .link1 with
      outbound := some { o with sent := o.sent + 1 }, syncOut := false } s := by
  cases hs : (linkOn s .link1).syncOut with
  | true =>
    have sending : (linkOn (setSyncOut false s) .link1).outbound = some o := by rw [setSyncOut, linkOn_setLink_same, ho]
    have stays : pump .link1 (setSyncOut false s) = setSyncOut false s := by simp [pump, sending]
    simp only [shiftOut, hs, if_true, stays, sending]
    rw [setSyncOut, linkOn_setLink_same, setLink_setLink]
  | false =>
    simp only [shiftOut, hs, Bool.false_eq_true, if_false, ho]

/-- Without a frame LINK1 shifts out the fill byte (R142). -/
theorem shiftOut_none (ho : (linkOn s .link1).outbound = none) (h : (linkOn s .link1).syncOut = false) : shiftOut s = s := by
  simp only [shiftOut, h, Bool.false_eq_true, if_false, ho]

end

section
variable (s : State)

/-- LINK1 presents what it holds between frames, and else the next byte of its frame (R142). -/
theorem presentNext_eq : presentNext s =
    setSyncOut (betweenFrames (linkOn s .link1) && !resetDue (linkOn s .link1) && attn1 s) s := rfl

/-- Between frames, and without a reset that is due, SDO1 presents ATTN1, and goes on doing so behind the choice of LINK0. -/
theorem presented_idle {c : Bool} (h : betweenFrames (linkOn s .link1) = true) (hr : resetDue (linkOn s .link1) = false)
    (hc : c = attn1 s) : presentNext s = setSyncOut c s ∧ attn1 (setSyncOut c s) = c ∧ attn1 (kick (setSyncOut c s)) = c := by
  have due : resetDue (linkOn (setSyncOut c s) .link1) = false := by rw [setSyncOut, linkOn_setLink_same]; exact hr
  refine ⟨?_, ?_, ?_⟩
  · rw [presentNext_eq, h, hr, hc]
    rfl
  · rw [attn1_setSyncOut s c hr, hc]
  · rw [attn1_kick _ due, attn1_setSyncOut s c hr, hc]

/-- Between frames SDO1 presents the first bit of a SYNC, or a low level (R142). -/
theorem sdo1_setSyncOut_none (c : Bool) (hp : s.pins.selected = true) (ho : (linkOn s .link1).outbound = none) :
    sdo1 (setSyncOut c s) = some c := by
  have on : (setSyncOut c s).pins.selected = true := hp
  have link : linkOn (setSyncOut c s) .link1 = { linkOn s .link1 with syncOut := c } := linkOn_setLink_same ..
  rw [sdo1, if_pos on, nextOutByte]
  simp only [link, ho]
  cases c <;> rfl

/-- Within a frame SDO1 presents the first bit of its next byte (R142, R149). -/
theorem sdo1_setSyncOut_some (c : Bool) {o : Outbound} (hp : s.pins.selected = true) (ho : (linkOn s .link1).outbound = some o)
    (h : o.sent < o.bytes.length) : sdo1 (setSyncOut c s) = o.bytes[o.sent]?.map fun x => x.msb := by
  have on : (setSyncOut c s).pins.selected = true := hp
  have link : linkOn (setSyncOut c s) .link1 = { linkOn s .link1 with syncOut := c } := linkOn_setLink_same ..
  rw [sdo1, if_pos on, nextOutByte]
  simp only [link, ho]
  rw [List.getD_eq_getElem?_getD, List.getElem?_eq_getElem h]
  rfl

end

/-- Settles O45: the byte joins the receiver, and LINK1 shifts one out and presents the next. -/
theorem bytesFillTheReceiver : Obligations.BytesFillTheReceiver := by
  unfold Obligations.BytesFillTheReceiver
  intro s b fed
  have filled : ∀ {l t},
    Settled s t → Unfinished (linkOn s l).receiver → Settled (fed l) (takeByte l b t) := fun {l t} h hu => by
    have same : (linkOn t l).receiver = (linkOn s l).receiver := (apart_fields (h.links l)).2.1
    rw [takeByte_unfinished t l b (by rw [same]; exact hu), same]
    exact settled_update l (fun u => { u with
      receiver := if (linkOn s l).receiver = [] ∧ b ≠ 0xC3 then [] else (linkOn s l).receiver ++ [b] }) h fun _ => rfl
  refine ⟨fun hu => ?_, fun off => ?_, ?_⟩
  · exact ⟨_, rfl, (filled (kick_settled s) hu).trans (kick_settled _)⟩
  · refine ⟨_, rfl, ?_⟩
    show Settled s (receivedByte .link1 b s)
    have : (kick s).pins.selected = false := by rw [kick_pins, off]
    rw [receivedByte]
    simp only [this, Bool.false_eq_true, if_false]
    exact kick_settled s
  · intro u shows
    have link : linkOn (kick s) .link1 = u := kick_link1 s
    have received : s.pins.selected = true → exec (.receivedByte .link1 b) s =
        .next (kick (presentNext (takeByte .link1 b (shiftOut (finishShifted (kick s)))))) := fun on => by
      have on' : (kick s).pins.selected = true := by rw [kick_pins, on]
      exact congrArg _ (if_pos on')
    refine ⟨fun on hu => ⟨fun o ho within => ⟨?_, ?_⟩, fun ho quiet => ⟨?_, ?_⟩⟩, fun on => ?_, fun off => ?_⟩
    · simp [nextOutByte, show (linkOn s .link1).outbound = some o from ho, List.getD_eq_getElem?_getD, within]
    · have shifted : shiftOut (finishShifted (kick s)) =
          setLink .link1 { u with outbound := some { o with sent := o.sent + 1 }, syncOut := false } (kick s) := by
        rw [finishShifted_within _ (by rw [link, ho]) within, shiftOut_some _ (by rw [link, ho]), link]
      let held : List Byte := if u.receiver = [] ∧ b ≠ 0xC3 then [] else u.receiver ++ [b]
      let s2 := setLink .link1 { u with outbound := some { o with sent := o.sent + 1 }, syncOut := false, receiver := held } (kick s)
      have taken : takeByte .link1 b (shiftOut (finishShifted (kick s))) = s2 := by
        rw [shifted, takeByte_unfinished _ _ _ (by rw [linkOn_setLink_same]; exact hu), setReceiver, linkOn_setLink_same,
          setLink_setLink]
      have link2 : linkOn s2 .link1 = _ := linkOn_setLink_same ..
      have shown : ∀ c, setSyncOut c s2 = setLink .link1 { u with
          outbound := some { o with sent := o.sent + 1 }, syncOut := c, receiver := held } (kick s) := fun c => by
        rw [setSyncOut, link2, setLink_setLink]
      have settled : ∀ c, Settled (shows c (fed .link1)) (kick (setSyncOut c s2)) := fun c => by
        refine Settled.trans ?_ (kick_settled _)
        rw [shown]
        simp only [shows, fed, linkOn_setLink_same, setLink_setLink]
        exact settled_setLink .link1 (kick_settled s) rfl
      have out : ∀ c, (linkOn (kick (setSyncOut c s2)) .link1).outbound = some { o with sent := o.sent + 1 } := fun c => by
        rw [kick_link1, shown, linkOn_setLink_same]
      have ends : betweenFrames (linkOn s2 .link1) = decide (o.sent + 1 = o.bytes.length) := by
        rw [link2]
        rfl
      have due : resetDue (linkOn s2 .link1) = (u.resetWait && (o.kind == .reply && decide (o.sent + 1 = o.bytes.length))) := by
        rw [link2]
        rfl
      refine ⟨_, _, by rw [received on, taken, presentNext_eq], settled _, out _, ?_⟩
      rw [ends]
      by_cases last : o.sent + 1 = o.bytes.length
      · by_cases reset : resetDue (linkOn s2 .link1) = true
        · rw [reset]
          rw [due] at reset
          simp only [last, decide_true, Bool.and_true] at reset
          simp [reset]
        · rw [Bool.not_eq_true] at reset
          obtain ⟨-, -, attention⟩ := presented_idle s2 (by rw [ends, decide_eq_true last]) reset rfl
          rw [reset]
          rw [due] at reset
          simp only [last, decide_true, Bool.and_true] at reset
          simp [last, reset, attention]
      · simp [last]
    · simp only [nextOutByte, show (linkOn s .link1).outbound = none from ho, show (linkOn s .link1).syncOut = false from quiet,
        Bool.false_eq_true, if_false]
    · have s1 : shiftOut (finishShifted (kick s)) = kick s := by
        rw [finishShifted_none _ (by rw [link, ho]), shiftOut_none _ (by rw [link, ho]) (by rw [link, quiet])]
      have taken := filled (kick_settled s) hu
      generalize hs2 : takeByte .link1 b (kick s) = s2 at taken
      have out : (linkOn s2 .link1).outbound = none := by
        rw [← hs2, takeByte_unfinished _ _ _ (by rw [link]; exact hu), setReceiver, linkOn_setLink_same, link, ho]
      obtain ⟨presents, -, attention⟩ := presented_idle s2 (c := attn1 s2) (by simp [betweenFrames, out]) (by simp [resetDue,
        out]) rfl
      refine ⟨kick (setSyncOut (attn1 s2) s2), ?_, ?_, ?_⟩
      · rw [received on, s1, hs2, presents]
      · rw [attention]
        exact (settled_update .link1 (fun u => { u with syncOut := attn1 s2 }) taken fun _ => rfl).trans (kick_settled _)
      · rw [kick_link1, setSyncOut, linkOn_setLink_same, out]
    · refine ⟨kick s, ?_, kick_settled s⟩
      have on' : (kick s).pins.selected = true := by rw [kick_pins, on]
      exact congrArg _ (if_pos on')
    · intro v
      have off' : ¬(kick s).pins.selected = true := by rw [kick_pins, off]; decide
      let s1 := selectLink1 true (kick s)
      have fallen : exec .cs1nFall s = .next (presentNext s1) := congrArg _ (if_neg off')
      have link1 : linkOn s1 .link1 = u := link
      have pins : s1.pins.selected = true := rfl
      have selected : Settled v s1 := selectLink1_settled s true
      have settled : ∀ c, Settled (shows c v) (setSyncOut c s1) := fun c =>
        settled_update .link1 (fun u => { u with syncOut := c }) selected fun _ => rfl
      refine ⟨fun ho => ?_, fun o ho within => ?_⟩
      · obtain ⟨presents, attention, -⟩ := presented_idle s1 (c := attn1 s1) (by rw [link1]; simp [betweenFrames, ho])
          (by rw [link1]; simp [resetDue, ho]) rfl
        refine ⟨setSyncOut (attn1 s1) s1, by rw [fallen, presents], ?_, ?_⟩
        · rw [attention]
          exact settled _
        · rw [attention]
          exact sdo1_setSyncOut_none s1 _ pins (by rw [link1, ho])
      · have between : betweenFrames (linkOn s1 .link1) = false := by
          rw [link1]
          simp [betweenFrames, show u.outbound = some o from ho, within.ne]
        refine ⟨setSyncOut false s1, ?_, settled _, sdo1_setSyncOut_some s1 _ pins (by rw [link1, ho]) within⟩
        rw [fallen, presentNext_eq, between]
        rfl

end Sys2Proof.Machine
end

section
/-! SUPPORT. The statement about frames that are judged: complete ones, discarded ones and truncated ones (08). -/

namespace Sys2Proof.Machine

-- One proof at a time: proofs elaborated side by side would hold a thread each, and its stack.
set_option Elab.async false

section
variable (s : State) (l : LinkId)

/-! ### What the bytes from a SYNC on amount to (R143) -/

/-- A complete frame is judged complete, whatever stands behind it. -/
theorem reception_framed {type seq : Byte} {payload bs : List Byte} (h : Framed type seq payload bs) (after : List Byte) :
    reception (0xC3 :: bs ++ after) = .complete (bs.length + 1) := by
  obtain ⟨⟨h1, h2⟩, a, b, rfl⟩ := h
  have len : (BitVec.ofNat 8 payload.length).toNat = payload.length := by
    rw [BitVec.toNat_ofNat, Nat.mod_eq_of_lt (by omega)]
  simp only [reception, List.cons_append, len, Config.maxPayload, List.length_cons, List.length_append, List.length_nil]
  rw [if_neg (by omega), if_pos (by omega)]

theorem reception_badLen {len : Byte} (rest : List Byte) (h : len.toNat = 0 ∨ 200 < len.toNat) :
    reception (0xC3 :: len :: rest) = .badLen := if_pos h

theorem reception_unfinished {bs : List Byte} (h : Unfinished bs) : reception bs = .incomplete := by
  rcases h with rfl | rfl | ⟨len, rest, rfl, hlo, hhi, hshort⟩
  · rfl
  · rfl
  · rw [reception, if_neg (by simp only [Config.maxPayload]; omega), if_neg (by omega)]

/-! ### The examination of a frame and of what stands behind it (R143, R144) -/

/-- Without a second SYNC the examination finds nothing, and the receiver hunts again (R143). -/
theorem rescan_lone (truncated : Bool) {fuel : Nat} {bs : List Byte} (hf : bs.length < fuel) (h : ∀ x ∈ bs, x ≠ 0xC3) :
    rescan l truncated fuel bs s = setReceiver l [] s := by
  induction fuel generalizing bs with
  | zero => omega
  | succ fuel ih =>
    cases bs with
    | nil => rfl
    | cons b bs =>
      have hb : ¬b = syncByte := h b (List.mem_cons_self ..)
      rw [rescan]
      dsimp only
      rw [if_neg hb]
      exact ih (Nat.lt_of_succ_lt_succ hf) fun x hx => h x (List.mem_cons_of_mem _ hx)

/-- A valid frame is accepted, and passed over whole where there is room for it (R144). -/
theorem rescan_valid {type seq : Byte} {payload bs : List Byte} (hF : Framed type seq payload bs) (hv : Valid type seq payload bs)
    (truncated : Bool) (fuel : Nat) (after : List Byte) :
    rescan l truncated (fuel + 1) (0xC3 :: bs ++ after) s =
      rescan l truncated fuel (if (linkOn s l).inbound.length < 2 then after else bs ++ after) (acceptFrame l seq payload s) := by
  have frame : (0xC3 :: bs ++ after).take (bs.length + 1) = 0xC3 :: bs := by simp
  have rest : (0xC3 :: bs ++ after).drop (bs.length + 1) = after := by simp
  rw [List.cons_append, rescan]
  dsimp only
  rw [if_pos (show (0xC3 : Byte) = syncByte from rfl), ← List.cons_append, reception_framed hF]
  dsimp only
  rw [frame, (readFrame_framed hF).1 hv]
  dsimp only
  rw [rest]
  by_cases room : (linkOn s l).inbound.length < 2
  · rw [if_pos room, if_pos (decide_eq_true (by exact room))]
  · rw [if_neg room, if_neg (by rw [decide_eq_true_iff]; exact room)]

/-- A frame with a wrong CRC or TYPE is a bad frame (R144). -/
theorem rescan_invalid {type seq : Byte} {payload bs : List Byte} (hF : Framed type seq payload bs) (hv : ¬Valid type seq payload bs)
    (truncated : Bool) (fuel : Nat) (after : List Byte) :
    rescan l truncated (fuel + 1) (0xC3 :: bs ++ after) s = rescan l truncated fuel (bs ++ after) (countBad l s) := by
  have frame : (0xC3 :: bs ++ after).take (bs.length + 1) = 0xC3 :: bs := by simp
  rw [List.cons_append, rescan]
  dsimp only
  rw [if_pos (show (0xC3 : Byte) = syncByte from rfl), ← List.cons_append, reception_framed hF]
  dsimp only
  rw [frame, (readFrame_framed hF).2 hv]

/-- A LEN out of range is a bad frame (R143). -/
theorem rescan_badLen {len : Byte} {rest : List Byte} (h : len.toNat = 0 ∨ 200 < len.toNat) (truncated : Bool) (fuel : Nat) :
    rescan l truncated (fuel + 1) (0xC3 :: len :: rest) s = rescan l truncated fuel (len :: rest) (countBad l s) := by
  rw [rescan]
  dsimp only
  rw [if_pos (show (0xC3 : Byte) = syncByte from rfl), reception_badLen rest h]

/-- The receiver is set beside the notice of a valid frame (R144). -/
theorem setReceiver_noticed (u : Link) (bs : List Byte) : setReceiver l bs (noticed l u s) = noticed l { u with receiver := bs } s := by
  cases s
  cases l <;> rfl

/-- The bytes in the receiver are examined as R143 says, up to the choice of a frame beside it. -/
theorem judgeReceiver_rescans {t : State} (h : Settled s t) :
    ∃ w, Rescans l false (linkOn s l).receiver s w ∧ Settled w (judgeReceiver l t) := by
  have same : (linkOn t l).receiver = (linkOn s l).receiver := (apart_fields (h.links l)).2.1
  rw [judgeReceiver, same]
  exact rescan_rescans l false _ _ s t (Nat.lt_succ_self _) h

/-- The count of a bad frame, behind which the receiver hunts again (R143). -/
theorem countBad_settled {s t : State} (h : Settled s t) :
    Settled (setLink l { linkOn s l with receiver := [], badFrames := countUp (linkOn s l).badFrames } s)
      (setReceiver l [] (countBad l t)) := by
  rw [setReceiver, countBad, linkOn_setLink_same, setLink_setLink]
  exact settled_update l (fun u => { u with receiver := [], badFrames := countUp u.badFrames }) h fun _ => rfl

/-- The count of a truncated frame (R145). -/
theorem truncated_settled {s t : State} (h : Settled s t) :
    Settled (setLink l { linkOn s l with truncated := countUp (linkOn s l).truncated } s)
      (setLink l { linkOn t l with truncated := countUp (linkOn t l).truncated } t) :=
  settled_update l (fun u => { u with truncated := countUp u.truncated }) h fun _ => rfl

/-- The count of a truncated frame, behind which the receiver hunts again (R145). -/
theorem cut_settled {s t : State} (h : Settled s t) :
    Settled (setLink l { linkOn s l with receiver := [], truncated := countUp (linkOn s l).truncated } s)
      (setReceiver l [] (setLink l { linkOn t l with truncated := countUp (linkOn t l).truncated } t)) := by
  rw [setReceiver, linkOn_setLink_same, setLink_setLink]
  exact settled_update l (fun u => { u with receiver := [], truncated := countUp u.truncated }) h fun _ => rfl

/-- An interrupted frame of LINK1 starts over, which is no other change (R149). -/
theorem interruptOutbound_settled : Settled s (interruptOutbound s) := by
  unfold interruptOutbound
  split
  · split
    · exact .refl s
    · next o ho _ =>
      have same := settled_setLink .link1 (Settled.refl s) (u := linkOn s .link1)
        (v := { linkOn s .link1 with outbound := some { o with sent := 0 } }) rfl
      rw [setLink_linkOn] at same
      exact same
  · exact .refl s

/-- A complete frame in the receiver is judged (R144). -/
theorem completeFrame_framed {type seq : Byte} {payload bs after : List Byte} (hF : Framed type seq payload bs)
    (h : (linkOn s l).receiver = 0xC3 :: bs ++ after) : completeFrame l s = kick (judgeReceiver l (kick s)) := by
  simp only [completeFrame, kick_receiver, h, reception_framed hF]

theorem badLenDiscard_badLen {len : Byte} {rest : List Byte} (hl : len.toNat = 0 ∨ 200 < len.toNat)
    (h : (linkOn s l).receiver = 0xC3 :: len :: rest) : badLenDiscard l s = kick (judgeReceiver l (kick s)) := by
  simp only [badLenDiscard, kick_receiver, h, reception_badLen rest hl]

/-- A frame begun and not complete is truncated (R145). -/
theorem truncateReceiver_begun {rest : List Byte} (h : (linkOn s l).receiver = 0xC3 :: rest) (hu : Unfinished (0xC3 :: rest)) :
    truncateReceiver l s = rescan l true (rest.length + 1) rest
      (setLink l { linkOn s l with truncated := countUp (linkOn s l).truncated } s) := by
  simp only [truncateReceiver, judgeReceiver_unfinished s l (h ▸ hu), h]

theorem truncateReceiver_hunting (h : (linkOn s l).receiver = []) : truncateReceiver l s = s := by
  simp only [truncateReceiver, judgeReceiver_unfinished s l (.inl h), h]

end

/-- Settles O46: the examination of the receiver, and its first step for a frame that stands alone. -/
theorem framesAreJudged : Obligations.FramesAreJudged := by
  unfold Obligations.FramesAreJudged
  refine ⟨fun s l type seq a b payload h1 h2 => ?_, fun s l type seq payload bs after hF h => ?_, fun s l len rest h hl => ?_,
    fun s l len h hl => ?_, fun s l hu => ?_, fun s => ?_⟩
  · intro body u i valid f v lone held
    have hF : Framed type seq payload (body ++ [a, b]) := ⟨⟨h1, h2⟩, a, b, rfl⟩
    have isValid : valid ↔ Valid type seq payload (body ++ [a, b]) := by
      have crc : (body ++ [a, b]).drop (payload.length + 3) = [a, b] := by simp [body]
      rw [Valid, crc]
      exact and_congr_left fun _ => eq_comm
    have judged : exec i s = .next (kick (rescan l false ((body ++ [a, b]).length + 2) (0xC3 :: (body ++ [a,
      b]) ++ []) (kick s))) := by
      refine congrArg Host.Outcome.next ((completeFrame_framed s l hF (after := []) (by rw [List.append_nil]; exact held)).trans ?_)
      rw [judgeReceiver, kick_receiver, held, List.append_nil]
      rfl
    have accepted := acceptFrame_noticed l seq payload (kick s)
    have inbound : (linkOn (kick s) l).inbound = u.inbound := (apart_fields (kick_link s l)).2.2.1
    rw [inbound, isLost_kick] at accepted
    have buffers : valid → u.inbound.length < 2 → ∀ {x}, { buffered u f with receiver := [] } = x →
        ∃ t, exec i s = .next t ∧ Settled (noticed l x s) t := fun hv room x hx => by
      refine ⟨_, judged, Settled.trans ?_ (kick_settled _)⟩
      rw [rescan_valid _ l hF (isValid.1 hv), inbound, if_pos room, rescan_lone _ l _ (Nat.succ_pos _) (List.forall_mem_nil _),
        accepted, if_pos room, setReceiver_noticed, ← hx]
      refine noticed_settled l (kick_settled s) ?_
      show { (buffered (linkOn (kick s) l) f).apart with receiver := [] } = { (buffered u f).apart with receiver := [] }
      rw [buffered_apart, kick_link, ← buffered_apart]
    refine ⟨fun hv none empty => ?_, fun hv some room => ?_, fun hv full alone => ?_, fun hv alone => ?_⟩
    · refine buffers hv (by rw [empty]; decide) ?_
      simp only [buffered, none, empty, List.nil_append, v, f]
    · obtain ⟨c, hc⟩ := Option.ne_none_iff_exists'.1 some
      refine buffers hv room ?_
      simp only [buffered, hc, v, f]
    · refine ⟨_, judged, Settled.trans ?_ (kick_settled _)⟩
      rw [rescan_valid _ l hF (isValid.1 hv), inbound, if_neg (by omega), List.append_nil, rescan_lone _ l _ (by omega) alone,
        accepted, if_neg (by omega), setReceiver_noticed]
      exact noticed_settled l (kick_settled s) (by
        have := kick_link s l
        simp only [Link.apart, Link.mk.injEq] at this ⊢
        simp [this, u])
    · refine ⟨_, judged, Settled.trans ?_ (kick_settled _)⟩
      rw [rescan_invalid _ l hF (mt isValid.2 hv), List.append_nil, rescan_lone _ l _ (by omega) alone]
      exact countBad_settled l (kick_settled s)
  · obtain ⟨w, hw, hs⟩ := judgeReceiver_rescans s l (kick_settled s)
    rw [h] at hw
    exact ⟨_, w, congrArg Host.Outcome.next (completeFrame_framed s l hF h), hw, hs.trans (kick_settled _)⟩
  · obtain ⟨w, hw, hs⟩ := judgeReceiver_rescans s l (kick_settled s)
    rw [h] at hw
    exact ⟨_, w, congrArg Host.Outcome.next (badLenDiscard_badLen s l hl h), hw, hs.trans (kick_settled _)⟩
  · have alone : ∀ x ∈ [len], x ≠ 0xC3 := by
      rintro x hx rfl
      obtain rfl := List.mem_singleton.1 hx
      revert hl
      decide
    refine ⟨_, congrArg Host.Outcome.next (badLenDiscard_badLen s l hl h), Settled.trans ?_ (kick_settled _)⟩
    rw [judgeReceiver, kick_receiver, h, rescan_badLen _ l hl,
      rescan_lone _ l _ (fuel := [0xC3, len].length) (by simp) alone]
    exact countBad_settled l (kick_settled s)
  · have still : reception (linkOn (kick s) l).receiver = .incomplete := by rw [kick_receiver]; exact reception_unfinished hu
    refine ⟨⟨kick s, ?_, kick_settled s⟩, kick s, ?_, kick_settled s⟩
    · show Host.Outcome.next (completeFrame l s) = _
      simp only [completeFrame, still]
    · show Host.Outcome.next (badLenDiscard l s) = _
      simp only [badLenDiscard, still]
  · intro risen cut counted
    have gap : exec .gapTruncation s = .next (kick (truncateReceiver .link0 (kick s))) := rfl
    have begins : ∀ {l rest} {x t : State}, Settled x t → (linkOn x l).receiver = 0xC3 :: rest → Unfinished (0xC3 :: rest) →
        truncateReceiver l t = rescan l true (rest.length + 1) rest
          (setLink l { linkOn t l with truncated := countUp (linkOn t l).truncated } t) := fun {l rest x t} ht h hu =>
      truncateReceiver_begun t l (((apart_fields (ht.links l)).2.1).trans h) hu
    have rises : s.pins.selected = true → exec .cs1nRise s =
        .next (kick (truncateReceiver .link1 (interruptOutbound (setSyncOut false (selectLink1 false (kick s)))))) := fun on => by
      have on' : (kick s).pins.selected = true := by rw [kick_pins, on]
      exact congrArg Host.Outcome.next (if_pos on')
    have deselected : Settled risen (setSyncOut false (selectLink1 false (kick s))) :=
      settled_update .link1 (fun u => { u with syncOut := false }) (selectLink1_settled s false) fun _ => rfl
    have interrupted : Settled risen (interruptOutbound (setSyncOut false (selectLink1 false (kick s)))) :=
      deselected.trans (interruptOutbound_settled _)
    refine ⟨fun rest h hu => ?_, fun rest on h hu => ?_, fun h => ?_, fun rest h hu alone => ?_, fun off => ?_, fun on h => ?_,
      fun rest on h hu alone => ?_⟩
    · obtain ⟨w, hw,
      hs⟩ := rescan_rescans .link0 true _ rest _ _ (Nat.lt_succ_self _) (truncated_settled .link0 (kick_settled s))
      exact ⟨_, w, gap, hw, by rw [begins (kick_settled s) h hu]; exact hs.trans (kick_settled _)⟩
    · obtain ⟨w, hw, hs⟩ := rescan_rescans .link1 true _ rest _ _ (Nat.lt_succ_self _) (truncated_settled .link1 interrupted)
      exact ⟨_, w, rises on, hw, by rw [begins (l := .link1) interrupted h hu]; exact hs.trans (kick_settled _)⟩
    · refine ⟨_, gap, ?_⟩
      rw [truncateReceiver_hunting _ _ (by rw [kick_receiver, h])]
      exact (kick_settled s).trans (kick_settled _)
    · refine ⟨_, gap, ?_⟩
      rw [begins (kick_settled s) h hu, rescan_lone _ _ _ (Nat.lt_succ_self _) alone]
      exact (cut_settled .link0 (kick_settled s)).trans (kick_settled _)
    · have off' : ¬(kick s).pins.selected = true := by rw [kick_pins, off]; decide
      exact ⟨kick s, congrArg Host.Outcome.next (if_neg off'), kick_settled s⟩
    · have held : (linkOn (interruptOutbound (setSyncOut false (selectLink1 false (kick s)))) .link1).receiver = [] :=
        ((apart_fields (interrupted.links .link1)).2.1).trans h
      refine ⟨_, rises on, ?_, ?_, fun o ho within => ?_⟩ <;> rw [truncateReceiver_hunting _ _ held]
      · exact interrupted.trans (kick_settled _)
      · have off : ¬(kick (interruptOutbound (setSyncOut false (selectLink1 false (kick s))))).pins.selected = true := by
          have pins := (device_fields (interrupted.trans (kick_settled _)).device).2.2.2.2.2.2.2.2.2.2.2.2.1
          rw [pins]
          exact Bool.false_ne_true
        exact if_neg off
      · have sending : (linkOn (setSyncOut false (selectLink1 false (kick s))) .link1).outbound = some o := by
          rw [setSyncOut, linkOn_setLink_same]
          exact (congrArg Link.outbound (kick_link1 s)).trans ho
        rw [kick_link1]
        simp only [interruptOutbound, sending, if_neg within.ne]
        rw [linkOn_setLink_same]
    · refine ⟨_, rises on, ?_⟩
      rw [begins (l := .link1) interrupted h hu, rescan_lone _ _ _ (Nat.lt_succ_self _) alone]
      exact (cut_settled .link1 interrupted).trans (kick_settled _)

end Sys2Proof.Machine
end

section
/-! SUPPORT. The statements about sending: the choice of the next frame, the end of a frame,
  and the events of a report queue (08, 10). -/

namespace Sys2Proof.Machine

-- One proof at a time: proofs elaborated side by side would hold a thread each, and its stack.
set_option Elab.async false

section
variable (s : State) (l : LinkId)

/-! ### A link that begins no frame by itself -/

/-- LINK0 chooses no frame for a link that is LINK1 or sends one: its link interface and its queue stay (R148). -/
theorem kick_held (h : l = .link1 ∨ (linkOn s l).outbound ≠ none) :
    linkOn (kick s) l = linkOn s l ∧ queueOn (kick s) l = queueOn s l := by
  cases l with
  | link1 => exact ⟨kick_link1 s, kick_queue1 s⟩
  | link0 =>
    have stays : kick s = s := (kick_begun s).stays (.inl (h.resolve_left LinkId.noConfusion))
    rw [stays]
    exact ⟨rfl, rfl⟩

theorem kick_transit : (kick s).transit = s.transit := (device_fields (kick_device s)).2.2.2.2.2.2.2.2.2.2.2.1

theorem kick_baud : (kick s).baud = s.baud := (device_fields (kick_device s)).2.2.2.2.2.2.2.2.1

/-! ### The end of an outbound frame (R146, R148, R152, R176) -/

theorem releaseBaud_eq : releaseBaud l s =
    { s with baud := if s.baud.awaiting = some l then { s.baud with awaiting := none } else s.baud } := by
  unfold releaseBaud
  split <;> rfl

/-- The end of a reply, but for a reset, is that of its command (R146). -/
theorem finishReply_over {c : Current} (hc : (linkOn s l).current = some c) (h : (linkOn s l).resetWait = false) :
    finishReply l s = replyOver l c s := by
  rw [finishReply_calm s l h, hc, releaseBaud_eq]
  cases hi : (linkOn s l).inbound with
  | nil => simp only [replyOver, promoteLink, hi, Option.map_some, Option.getD_some]
  | cons f rest => simp only [replyOver, promoteLink, hi, Option.map_some, Option.getD_some]

theorem fullySent_iff (o : Outbound) : fullySent l o = true ↔ l = .link0 ∨ o.sent = o.bytes.length := by
  rw [fullySent, Bool.or_eq_true, beq_iff_eq, beq_iff_eq]

/-- The row of a reply that is sent ends it (R146). -/
theorem replySent_ends {o : Outbound} (ho : (linkOn (kick s) l).outbound = some o) (hk : o.kind = .reply)
    (hf : l = .link0 ∨ o.sent = o.bytes.length) : replySent l s = kick (finishReply l (kick s)) := by
  have full : fullySent l o = true := (fullySent_iff l o).2 hf
  obtain ⟨kind, bytes, sent⟩ := o
  obtain rfl : kind = .reply := hk
  simp only [replySent, ho, full, if_true]

/-- The row of a report frame that is sent ends it (R176). -/
theorem sentNotice_ends {o : Outbound} {seq : Byte} (ho : (linkOn (kick s) l).outbound = some o) (hk : o.kind = .report seq)
    (hf : l = .link0 ∨ o.sent = o.bytes.length) : sentNotice l s = kick (finishReport l seq (kick s)) := by
  have full : fullySent l o = true := (fullySent_iff l o).2 hf
  obtain ⟨kind, bytes, sent⟩ := o
  obtain rfl : kind = .report seq := hk
  simp only [sentNotice, ho, full, if_true]

theorem isSending_iff (seq : Byte) (r : Record) : isSending seq r = true ↔ r.seq = seq ∧ r.standing = .sending := by
  rw [isSending, Bool.and_eq_true, beq_iff_eq, beq_iff_eq]

theorem isSending_false {seq : Byte} {r : Record} (h : r.seq ≠ seq ∨ r.standing ≠ .sending) : isSending seq r = false := by
  rw [Bool.eq_false_iff, ne_eq, isSending_iff]
  tauto

/-- The sent notice of a SENDING record (R176). -/
theorem sent_found {q : Queue} {seq : Byte} {before after : List Record} {r : Record} (restart : Nat)
    (hq : q.records = before ++ r :: after) (hr : r.seq = seq) (hs : r.standing = .sending)
    (hb : ∀ x ∈ before, x.seq ≠ seq ∨ x.standing ≠ .sending) :
    q.sent seq restart = { q with
      records := before ++ { r with standing := .inFlight false } :: after
      resendTimer := some (q.resendTimer.getD restart) } := by
  have found : isSending seq r = true := (isSending_iff seq r).2 ⟨hr, hs⟩
  have some : q.records.any (isSending seq) = true := by
    rw [List.any_eq_true]
    exact ⟨r, by rw [hq]; simp, found⟩
  rw [Queue.sent, if_pos some, hq, restand_split _ (fun x hx => isSending_false (hb x hx)) found]

/-- The sent notice of a record that is not SENDING changes nothing (R176). -/
theorem sent_missing {q : Queue} {seq : Byte} (restart : Nat) (h : ∀ x ∈ q.records, x.seq ≠ seq ∨ x.standing ≠ .sending) :
    q.sent seq restart = q := by
  have none : ¬q.records.any (isSending seq) = true := by
    rw [List.any_eq_true]
    rintro ⟨x, hx, sending⟩
    rw [isSending_false (h x hx)] at sending
    cases sending
  rw [Queue.sent, if_neg none]

/-! ### The events of a report queue (R174, R177) -/

theorem markDue_eq : List.map Record.markDue = dueAgain := by
  funext rs
  refine List.map_congr_left fun r _ => ?_
  obtain ⟨report, seq, standing⟩ := r
  cases standing <;> rfl

/-- The choice of a frame changes only the standing of records. -/
theorem queue_apart_fields {p q : Queue} (h : q.apart = p.apart) :
    q.records.length = p.records.length ∧ q.nextSeq = p.nextSeq ∧ q.dropped = p.dropped ∧ q.resendTimer = p.resendTimer ∧
      q.accepting = p.accepting := by
  simp only [Queue.apart, Queue.mk.injEq] at h
  have length := congrArg List.length h.1
  simp only [List.length_map] at length
  tauto

theorem resendTimer_kick : (queueOn (kick s) l).resendTimer = (queueOn s l).resendTimer :=
  (queue_apart_fields (kick_queue s l)).2.2.2.1

theorem resend_kick : (linkOn (kick s) l).resend = (linkOn s l).resend :=
  (apart_fields (kick_link s l)).2.2.2.2.2.2.2.2.2.2.2.1

/-- The expiry of a running resend timer makes every IN_FLIGHT record due (R177). -/
theorem resendExpiry_runs (h : (queueOn s l).resendTimer ≠ none) : resendExpiry l s =
    kick (setQueue l { queueOn (kick s) l with
      records := dueAgain (queueOn (kick s) l).records
      resendTimer := some (s.now + (linkOn s l).resend * 1000) } (kick s)) := by
  obtain ⟨x, hx⟩ := Option.ne_none_iff_exists'.1 h
  have runs : (queueOn (kick s) l).resendTimer = some x := (resendTimer_kick s l).trans hx
  simp only [resendExpiry, runs, markDue_eq, afterMs, kick_now, resend_kick]

theorem resendExpiry_stopped (h : (queueOn s l).resendTimer = none) : resendExpiry l s = kick s := by
  have stopped : (queueOn (kick s) l).resendTimer = none := (resendTimer_kick s l).trans h
  simp only [resendExpiry, stopped]

/-- The queue takes the oldest record handed to it (R174). -/
theorem reportRecord_taken {r : Report} {rest : List Report} (h : s.transit.toQueue.at_ l = r :: rest) : reportRecord l s =
    kick (setQueue l ((queueOn (kick s) l).take r)
      { kick s with transit := { s.transit with toQueue := s.transit.toQueue.put l rest } }) := by
  simp only [reportRecord, kick_transit, h]
  rfl

/-! ### What the events leave, apart from the choice of a frame -/

theorem settled_transit {t : State} (x : Transit) (h : Settled s t) : Settled { s with transit := x } { t with transit := x } := by
  obtain ⟨L, Q, e⟩ : ∃ L Q, t = withLinks L Q s := ⟨_, _, eq_withLinks h.device⟩
  refine ⟨h.links, h.queues, ?_⟩
  rw [e]
  rfl

theorem take_apart {p q : Queue} (r : Report) (h : q.apart = p.apart) : (q.take r).apart = (p.take r).apart := by
  obtain ⟨length, seq, dropped, timer, accepting⟩ := queue_apart_fields h
  have records : q.records.map (fun r => { r with standing := .waiting }) = p.records.map fun r => { r with standing := .waiting } :=
    congrArg Queue.records h
  unfold Queue.take
  rw [accepting, length]
  cases p.accepting with
  | false => exact h
  | true =>
    by_cases full : p.records.length < Config.queueSize
    · simp only [if_true, if_pos full, Queue.append, Queue.apart, List.map_append, records, seq, dropped, timer, accepting]
    · simp only [if_true, if_neg full, Queue.apart, records, seq, dropped, timer]

theorem dueAgain_apart {p q : Queue} (x : Option Nat) (h : q.apart = p.apart) :
    Queue.apart { q with records := dueAgain q.records, resendTimer := x } =
      Queue.apart { p with records := dueAgain p.records, resendTimer := x } := by
  obtain ⟨-, seq, dropped, -, accepting⟩ := queue_apart_fields h
  have blind : ∀ rs : List Record, (dueAgain rs).map (fun r => ({ r with standing := .waiting } : Record)) =
      rs.map fun r => { r with standing := .waiting } := fun rs => by
    rw [dueAgain, List.map_map]
    refine List.map_congr_left fun r _ => ?_
    obtain ⟨report, seq, standing⟩ := r
    cases standing <;> rfl
  have records : q.records.map (fun r => { r with standing := .waiting }) = p.records.map fun r => { r with standing := .waiting } :=
    congrArg Queue.records h
  simp only [Queue.apart, blind, records, seq, dropped, accepting]

/-- The queue of a record handed to it, but for the choice of a frame (R174). -/
theorem reportRecord_settled {r : Report} {rest : List Report} (h : s.transit.toQueue.at_ l = r :: rest) :
    Settled (setQueue l ((queueOn s l).take r) { s with transit := { s.transit with toQueue := s.transit.toQueue.put l rest } })
      (reportRecord l s) := by
  rw [reportRecord_taken s l h]
  exact (settled_setQueue l (settled_transit s _ (kick_settled s)) (take_apart r (kick_queue s l))).trans (kick_settled _)

/-- A queue whose link begins no frame by itself takes a record as it was before (R174). -/
theorem reportRecord_held {r : Report} {rest : List Report} (h : s.transit.toQueue.at_ l = r :: rest)
    (held : l = .link1 ∨ (linkOn s l).outbound ≠ none) :
    queueOn (reportRecord l s) l = (queueOn s l).take r ∧ linkOn (reportRecord l s) l = linkOn s l := by
  obtain ⟨link, queue⟩ := kick_held s l held
  rw [reportRecord_taken s l h]
  obtain ⟨link', queue'⟩ := kick_held (setQueue l ((queueOn (kick s) l).take r)
      { kick s with transit := { s.transit with toQueue := s.transit.toQueue.put l rest } }) l (by
    refine held.imp_right fun sending => ?_
    show (linkOn (kick s) l).outbound ≠ none
    rw [link]
    exact sending)
  refine ⟨queue'.trans ?_, link'.trans link⟩
  rw [queueOn_setQueue_same, queue]

theorem take_waiting {q : Queue} (r : Report) (ha : q.accepting = true) (hl : q.records.length < 64) :
    q.take r = { q with records := q.records ++ [⟨r, q.nextSeq, .waiting⟩], nextSeq := q.nextSeq + 1 } := by
  rw [Queue.take, if_pos ha, if_pos (show _ < Config.queueSize from hl), Queue.append]

theorem take_dropped {q : Queue} (r : Report) (ha : q.accepting = true) (hl : 64 ≤ q.records.length) :
    q.take r = { q with dropped := if q.dropped < 65535 then q.dropped + 1 else 65535 } := by
  rw [Queue.take, if_pos ha, if_neg (show ¬_ < Config.queueSize from Nat.not_lt.2 hl)]
  rfl

theorem take_discarded {q : Queue} (r : Report) (ha : q.accepting = false) : q.take r = q := by
  rw [Queue.take, ha]
  rfl

theorem setQueue_queueOn : setQueue l (queueOn s l) s = s := by
  cases s
  cases l <;> rfl

theorem dueAgain_split {before after : List Record} {r : Record} {d : Bool} (hr : r.standing = .inFlight d)
    (hb : ∀ x ∈ before, ∀ d, x.standing ≠ .inFlight d) :
    dueAgain (before ++ r :: after) = before ++ { r with standing := .inFlight true } :: dueAgain after := by
  have kept : ∀ x ∈ before, Record.markDue x = x := fun x hx => by
    obtain ⟨report, seq, standing⟩ := x
    cases standing with
    | inFlight d => exact absurd rfl (hb _ hx d)
    | waiting => rfl
    | sending => rfl
  obtain ⟨report, seq, standing⟩ := r
  obtain rfl : standing = .inFlight d := hr
  rw [← markDue_eq, List.map_append, List.map_congr_left kept, List.map_id', List.map_cons]
  rfl

/-- LINK0, idle and with nothing to send, begins the oldest record in flight once it is due (R148, R175, R177). -/
theorem resendExpiry_begins {before after : List Record} {r : Record} {d : Bool}
    (ht : (queueOn s .link0).resendTimer ≠ none) (hf : reportsNext .link0 s) (hn : offersNothing (queueOn s .link0))
    (hq : (queueOn s .link0).records = before ++ r :: after) (hr : r.standing = .inFlight d)
    (hb : ∀ x ∈ before, ∀ d, x.standing ≠ .inFlight d) :
    (linkOn (resendExpiry .link0 s) .link0).outbound = reportOut r 0 ∧ queueOn (resendExpiry .link0 s) .link0 =
      { queueOn s .link0 with
        records := before ++ { r with standing := .inFlight false } :: dueAgain after
        resendTimer := some (s.now + (linkOn s .link0).resend * 1000) } := by
  have still : kick s = s := (kick_begun s).stays (.inr (.inr ⟨hf.2.2.1, .inr hn⟩))
  rw [resendExpiry_runs s .link0 ht, still]
  generalize hw : setQueue .link0 { queueOn s .link0 with
    records := dueAgain (queueOn s .link0).records
    resendTimer := some (s.now + (linkOn s .link0).resend * 1000) } s = w
  have link : linkOn w .link0 = linkOn s .link0 := by rw [← hw, linkOn_setQueue]
  have queue : queueOn w .link0 = { queueOn s .link0 with
      records := dueAgain (queueOn s .link0).records
      resendTimer := some (s.now + (linkOn s .link0).resend * 1000) } := by rw [← hw, queueOn_setQueue_same]
  have next : reportsNext .link0 w := by
    rw [← hw]
    exact hf
  have records : (queueOn w .link0).records = before ++ { r with standing := .inFlight true } :: dueAgain after := by
    rw [queue, hq, dueAgain_split hr hb]
  rw [(kick_begun w).resent before { r with standing := .inFlight true } (dueAgain after) next records rfl
    fun x hx => hb x hx true, queueOn_setQueue_same, queue, linkOn_setQueue, linkOn_setLink_same]
  exact ⟨rfl, rfl⟩

end

/-- Settles O49: the queue takes what is handed to it, and its expiry makes every IN_FLIGHT record due. -/
theorem queueEventsActOnTheRecords : Obligations.QueueEventsActOnTheRecords := by
  unfold Obligations.QueueEventsActOnTheRecords
  intro s l q
  refine ⟨fun r rest h => ?_, fun h => ⟨_, rfl, ?_⟩, fun h => ⟨_, rfl, ?_⟩, fun h => ?_⟩
  · refine ⟨fun ha hl => ⟨_, rfl, ?_, fun held => ?_⟩, fun ha hl => ⟨_, rfl, ?_⟩, fun ha => ⟨_, rfl, ?_⟩⟩
    · rw [← take_waiting r ha hl]
      exact reportRecord_settled s l h
    · obtain ⟨queue, link⟩ := reportRecord_held s l h held
      rw [queue, link, take_waiting r ha hl]
      exact ⟨rfl, rfl⟩
    · rw [← take_dropped r ha hl]
      exact reportRecord_settled s l h
    · have settled := reportRecord_settled s l h
      rw [take_discarded r ha] at settled
      exact (setQueue_queueOn { s with transit := { s.transit with toQueue := s.transit.toQueue.put l rest } } l) ▸ settled
  · have none : reportRecord l s = kick s := by simp only [reportRecord, kick_transit, h]
    rw [none]
    exact kick_settled s
  · rw [resendExpiry_stopped s l h]
    exact kick_settled s
  · intro v
    refine ⟨_, rfl, ?_, fun held => ?_, ?_⟩
    · rw [resendExpiry_runs s l h]
      exact (settled_setQueue l (kick_settled s) (dueAgain_apart _ (kick_queue s l))).trans (kick_settled _)
    · obtain ⟨link, queue⟩ := kick_held s l held
      rw [resendExpiry_runs s l h, queue]
      obtain ⟨link', queue'⟩ := kick_held (setQueue l v (kick s)) l (by rwa [linkOn_setQueue, link])
      exact ⟨queue'.trans (queueOn_setQueue_same ..), congrArg Link.outbound (link'.trans link)⟩
    · rintro before r after d rfl hf hn hq hr hb
      exact resendExpiry_begins s h hf hn hq hr hb

end Sys2Proof.Machine
end

section
/-! SUPPORT. The statement about the end of a sent frame, and the order in which outbound frames are chosen (08, 10). -/

namespace Sys2Proof.Machine

-- One proof at a time: proofs elaborated side by side would hold a thread each, and its stack.
set_option Elab.async false

section
variable (s : State) (l : LinkId)

/-! ### A frame that is not at its end -/

/-- A frame that LINK1 has not shifted out whole does not end (R149). -/
theorem ends_within {o : Outbound} (ho : (linkOn (kick s) l).outbound = some o) (hf : ¬fullySent l o = true) :
    replySent l s = kick s ∧ sentNotice l s = kick s := by
  obtain ⟨kind, bytes, sent⟩ := o
  cases kind with
  | reply => simp only [replySent, sentNotice, ho, if_neg hf, and_self]
  | report seq => simp only [replySent, sentNotice, ho, if_neg hf, and_self]

/-! ### What the end of a frame leaves, apart from the choice of the next -/

theorem settled_baud {t : State} (b : Baud) (h : Settled s t) : Settled { s with baud := b } { t with baud := b } := by
  obtain ⟨L, Q, e⟩ : ∃ L Q, t = withLinks L Q s := ⟨_, _, eq_withLinks h.device⟩
  refine ⟨h.links, h.queues, ?_⟩
  rw [e]
  rfl

theorem replyOver_settled {t : State} (c : Current) (h : Settled s t) (link : linkOn t l = linkOn s l) :
    Settled (replyOver l c s) (replyOver l c t) := by
  have baud : t.baud = s.baud := (device_fields h.device).2.2.2.2.2.2.2.2.1
  unfold replyOver
  rw [link, baud]
  exact settled_setLink l (settled_baud s _ h) rfl

theorem outbound_replyOver (c : Current) : (linkOn (replyOver l c s) l).outbound = none := by
  rw [replyOver, linkOn_setLink_same]

/-- The end of a frame is no other change of its link than sending makes. -/
theorem unsent_settled {t : State} (h : Settled s t) (link : linkOn t l = linkOn s l) :
    Settled s (setLink l { linkOn s l with outbound := none } t) := by
  have settled := settled_setLink l h (u := linkOn s l) (v := { linkOn s l with outbound := none }) rfl
  rwa [setLink_linkOn] at settled

/-! ### Records that stay in flight -/

theorem restand_getElem {p : Record → Bool} {st : Standing} {r : Record} (hr : p r = false) {rs : List Record} {i : Nat}
    (h : rs[i]? = some r) : (restand p st rs)[i]? = some r := by
  induction rs generalizing i with
  | nil => exact h
  | cons x rs ih =>
    by_cases hx : p x = true
    · rw [restand, if_pos hx]
      cases i with
      | zero =>
        rw [List.getElem?_cons_zero, Option.some_inj] at h
        rw [h, hr] at hx
        cases hx
      | succ i => exact h
    · rw [restand, if_neg hx]
      cases i with
      | zero => exact h
      | succ i => exact ih h

/-- A record in flight that is not due is left so by the choice of a frame (R175). -/
theorem pump_keeps_inFlight {r : Record} {i : Nat} (hr : r.standing = .inFlight false)
    (h : (queueOn s l).records[i]? = some r) : (queueOn (pump l s) l).records[i]? = some r := by
  have notDue : r.standing.isDue = false := isDue_false (by rw [hr]; decide)
  have notWaiting : (r.standing == .waiting) = false := by rw [hr]; decide
  unfold pump
  dsimp only
  split
  · exact h
  split
  · exact h
  split
  · exact h
  unfold chooseReport
  cases hq : (queueOn s l).offer with
  | none => exact h
  | some a =>
    obtain ⟨x, q⟩ := a
    show (queueOn (setQueue l q _) l).records[i]? = some r
    rw [queueOn_setQueue_same]
    unfold Queue.offer at hq
    split at hq
    · cases hq
      exact restand_getElem (p := fun r => r.standing.isDue) notDue h
    · split at hq
      · simp only [Option.map_eq_some_iff] at hq
        obtain ⟨y, -, hq⟩ := hq
        cases hq
        exact restand_getElem (p := fun r => r.standing == .waiting) notWaiting h
      · cases hq

theorem kick_keeps_inFlight {r : Record} {i : Nat} (hr : r.standing = .inFlight false)
    (h : (queueOn s l).records[i]? = some r) : (queueOn (kick s) l).records[i]? = some r := by
  cases l with
  | link0 => exact pump_keeps_inFlight s .link0 hr h
  | link1 => rwa [kick_queue1]

/-! ### The end of a report frame (R176) -/

/-- The end of the frame of a SENDING record. -/
theorem finishReport_found {seq : Byte} {before after : List Record} {r : Record}
    (hq : (queueOn s l).records = before ++ r :: after) (hr : r.seq = seq) (hs : r.standing = .sending)
    (hb : ∀ x ∈ before, x.seq ≠ seq ∨ x.standing ≠ .sending) :
    finishReport l seq s = setQueue l { queueOn s l with
      records := before ++ { r with standing := .inFlight false } :: after
      resendTimer := some ((queueOn s l).resendTimer.getD (s.now + (linkOn s l).resend * 1000)) }
      (setLink l { linkOn s l with outbound := none } s) := by
  rw [finishReport, sent_found _ hq hr hs hb, afterMs]

/-- The end of a frame whose record is not SENDING. -/
theorem finishReport_missing {seq : Byte} (h : ∀ x ∈ (queueOn s l).records, x.seq ≠ seq ∨ x.standing ≠ .sending) :
    finishReport l seq s = setLink l { linkOn s l with outbound := none } s := by
  rw [finishReport, sent_missing _ h]
  exact setQueue_queueOn (setLink l { linkOn s l with outbound := none } s) l

theorem sentRecord_apart (q : Queue) {before after : List Record} {r : Record} (x : Option Nat)
    (hq : q.records = before ++ r :: after) :
    Queue.apart { q with records := before ++ { r with standing := .inFlight false } :: after, resendTimer := x } =
      Queue.apart { q with resendTimer := x } := by
  simp only [Queue.apart, hq, List.map_append, List.map_cons]

/-! ### The baud rate (R152) -/

theorem baudReady_iff : baudReady s = true ↔
    s.baud.awaiting = none ∧ (linkOn s .link0).outbound = none ∧ (linkOn s .link0).receiver = [] := by
  rw [baudReady, Bool.and_eq_true, Bool.and_eq_true, beq_iff_eq, Option.isNone_iff_eq_none, List.isEmpty_iff, and_assoc]

/-- The rate is taken on a LINK0 that neither sends nor receives, and has waited for it (R152). -/
theorem rate_taken {r : BaudRate} (hp : s.baud.pending = some r) (ha : s.baud.awaiting = none)
    (ho : (linkOn (kick s) .link0).outbound = none) (hr : (linkOn (kick s) .link0).receiver = []) :
    pendingBaudRateApplied s = kick { kick s with baud := ⟨r, none, none⟩ } := by
  have ready : baudReady (kick s) = true := (baudReady_iff (kick s)).2 ⟨by rw [kick_baud, ha], ho, hr⟩
  simp only [pendingBaudRateApplied, kick_baud, hp, ready, if_true]

theorem rate_waits {r : BaudRate} (hp : s.baud.pending = some r) (h : ¬baudReady (kick s) = true) :
    pendingBaudRateApplied s = kick s := by
  simp only [pendingBaudRateApplied, kick_baud, hp, if_neg h]

end

/-- Settles O48: the end of a frame of either kind, and the moment of the baud rate. -/
theorem sentFramesActOnTheirLink : Obligations.SentFramesActOnTheirLink := by
  unfold Obligations.SentFramesActOnTheirLink
  refine ⟨fun s l o => ?_, fun s r hp => ?_⟩
  · intro u q idle ho
    obtain ⟨link,
      queue⟩ := kick_held s l (.inr (by rw [show (linkOn s l).outbound = some o from ho]; exact Option.some_ne_none o))
    have sends : (linkOn (kick s) l).outbound = some o := by rw [link]; exact ho
    have idles : ∀ t, (linkOn t l).outbound = none → idle (kick t) := by
      rintro t ht rfl
      rw [kick_link1]
      exact ht
    have keeps : ∀ t, l = .link1 → queueOn (kick t) l = queueOn t l := by
      rintro t rfl
      exact kick_queue1 t
    refine ⟨fun hl hn => ?_, fun c hk hf hw hc => ⟨_, rfl, ?_⟩, fun seq hk hf => ⟨fun before r after hq hr hs hb => ⟨_, rfl,
      ?_⟩,
      fun h => ⟨_, rfl, ?_⟩⟩⟩
    · have short : ¬fullySent l o = true := by
        rw [fullySent_iff, hl]
        rintro (h | h)
        · cases h
        · exact hn h
      obtain ⟨hr, hs⟩ := ends_within s l sends short
      exact ⟨⟨_, rfl, hr ▸ kick_settled s⟩, _, rfl, hs ▸ kick_settled s⟩
    · rw [replySent_ends s l sends hk hf, finishReply_over (kick s) l (by rw [link]; exact hc) (by rw [link]; exact hw)]
      exact ⟨(replyOver_settled s l c (kick_settled s) link).trans (kick_settled _), idles _ (outbound_replyOver (kick s) l c),
        fun h => (keeps _ h).trans queue⟩
    · rw [sentNotice_ends s l sends hk hf, finishReport_found (kick s) l (by rw [queue]; exact hq) hr hs hb, link, queue,
      kick_now]
      refine ⟨(settled_setQueue l ?_ (sentRecord_apart q _ hq)).trans (kick_settled _), ?_, idles _ ?_, fun h => ?_⟩
      · exact unsent_settled s l (kick_settled s) link
      · refine kick_keeps_inFlight _ l rfl ?_
        rw [queueOn_setQueue_same, List.getElem?_append_right (Nat.le_refl _), Nat.sub_self, List.getElem?_cons_zero]
      · rw [linkOn_setQueue, linkOn_setLink_same]
      · rw [keeps _ h, queueOn_setQueue_same]
    · rw [sentNotice_ends s l sends hk hf, finishReport_missing (kick s) l (by rw [queue]; exact h), link]
      exact ⟨(unsent_settled s l (kick_settled s) link).trans (kick_settled _), idles _ (by rw [linkOn_setLink_same]),
        fun h => (keeps _ h).trans queue⟩
  · intro u
    refine ⟨fun ha ho hr => ⟨_, rfl, ?_⟩, fun h => ⟨_, rfl, ?_⟩⟩
    · have still : kick s = s := (kick_begun s).stays (.inr (.inl ⟨rfl, by rw [hp]; rfl, ha⟩))
      rw [rate_taken s hp ha (by rw [still]; exact ho) (by rw [still]; exact hr), still]
      exact kick_settled _
    · have waits : ¬baudReady (kick s) = true := by
        rw [baudReady_iff, kick_baud, kick_receiver]
        rintro ⟨ha, ho, hr⟩
        rcases h with h | h | h
        · exact h ha
        · rw [(kick_begun s).stays (.inl h)] at ho
          exact h ho
        · exact h hr
      rw [rate_waits s hp waits]
      exact kick_settled s

section
variable (s : State) (l : LinkId)

/-! ### What ATTN1 shows (R149, R175) -/

/-- A queue offers nothing exactly when no record is due, and the window is full or none is WAITING (R175). -/
theorem offer_isSome_iff (q : Queue) : q.offer.isSome = true ↔ ¬offersNothing q := by
  constructor
  · intro h nothing
    rw [offer_nothing nothing] at h
    cases h
  · intro h
    by_contra offersNone
    rw [Bool.not_eq_true, Option.isSome_eq_false_iff, Option.isNone_iff_eq_none] at offersNone
    unfold Queue.offer at offersNone
    split at offersNone
    · cases offersNone
    · rename_i due
      have noneDue : ∀ x ∈ q.records, x.standing ≠ .inFlight true := fun x hx hs =>
        (List.find?_eq_none.1 due x hx) ((isDue_iff x).2 hs)
      split at offersNone
      · rw [Option.map_eq_none_iff, List.find?_eq_none] at offersNone
        exact h ⟨noneDue, .inr fun x hx hs => offersNone x hx (by rw [hs]; rfl)⟩
      · rename_i full
        exact h ⟨noneDue, .inl (Nat.not_lt.1 full)⟩

theorem canChoose_iff (u : Link) (q : Queue) :
    canChoose u q = true ↔ u.replyPending = true ∨ u.holdReports = false ∧ ¬offersNothing q := by
  rw [canChoose, Bool.or_eq_true, Bool.and_eq_true, Bool.not_eq_true', offer_isSome_iff]

/-- ATTN1 is asserted while a frame is partly sent (R149). -/
theorem attn1_within {o : Outbound} (ho : (linkOn s .link1).outbound = some o) (h : o.sent < o.bytes.length) : attn1 s = true := by
  have calm : resetDue (linkOn s .link1) = false := by
    simp only [resetDue, ho, beq_eq_false_iff_ne.2 h.ne, Bool.and_false]
  rw [attn1_eq s calm]
  simp only [hasFrame, ho, if_neg h.ne]

/-- ATTN1 of an idle LINK1 shows whether a frame could be chosen (R149). -/
theorem attn1_idle (ho : (linkOn s .link1).outbound = none) : attn1 s = true ↔
    (linkOn s .link1).replyPending = true ∨ (linkOn s .link1).holdReports = false ∧ ¬offersNothing (queueOn s .link1) := by
  have calm : resetDue (linkOn s .link1) = false := by simp only [resetDue, ho, Bool.and_false]
  rw [attn1_eq s calm, ← canChoose_iff]
  simp only [hasFrame, ho]

/-! ### The frame chosen at a row (R148, log 14) -/

/-- An outbound frame with one more byte shifted out on LINK1, and none on LINK0 (log 15). -/
def clocked (l : LinkId) (o : Outbound) : Outbound := { o with sent := o.sent + if l = .link0 then 0 else 1 }

theorem presentNext_link0 : linkOn (presentNext s) .link0 = linkOn s .link0 := linkOn_setLink_other s .link1 _

theorem presentNext_link1 : ∃ c, linkOn (presentNext s) .link1 = { linkOn s .link1 with syncOut := c } :=
  ⟨_, linkOn_setLink_same ..⟩

/-- CS1N_FALL lets LINK0 choose, and changes nothing that it sends by (log 14). -/
theorem cs1nFall_link0 : linkOn (cs1nFall s) .link0 = linkOn (kick s) .link0 ∧ queueOn (cs1nFall s) .link0 = queueOn (kick s) .link0 := by
  unfold cs1nFall
  dsimp only
  split
  · exact ⟨rfl, rfl⟩
  · exact ⟨presentNext_link0 (selectLink1 true (kick s)), rfl⟩

/-- A LINK1 that presents a SYNC chooses a frame as it shifts a byte out (R148, R149). -/
theorem shiftOut_sync (h : (linkOn s .link1).syncOut = true) :
    linkOn (shiftOut s) .link1 = { linkOn (pump .link1 (setSyncOut false s)) .link1 with
      outbound := (linkOn (pump .link1 (setSyncOut false s)) .link1).outbound.map (clocked .link1) } ∧
    queueOn (shiftOut s) .link1 = queueOn (pump .link1 (setSyncOut false s)) .link1 := by
  simp only [shiftOut, h, if_true]
  generalize pump .link1 (setSyncOut false s) = t
  obtain ho | ⟨o, ho⟩ := (linkOn t .link1).outbound.eq_none_or_eq_some
  · simp only [ho, Option.map_none, and_true]
    rw [← ho]
  · simp only [ho, Option.map_some]
    exact ⟨linkOn_setLink_same .., rfl⟩

/-- A byte clocked on an idle LINK1 that presents a SYNC (R143, R148, R149). -/
theorem receivedByte_chooses (b : Byte) (hp : s.pins.selected = true) (hs : (linkOn s .link1).syncOut = true)
    (hu : Unfinished (linkOn s .link1).receiver) (ho : (linkOn s .link1).outbound = none) :
    let v := pump .link1 (setSyncOut false (kick s))
    let t := receivedByte .link1 b s
    (linkOn t .link1).outbound = (linkOn v .link1).outbound.map (clocked .link1) ∧
      (linkOn t .link1).replyPending = (linkOn v .link1).replyPending ∧ queueOn t .link1 = queueOn v .link1 := by
  intro v t
  obtain ⟨link, queue⟩ := shiftOut_sync (kick s) (by rw [kick_link1]; exact hs)
  have receiver : (linkOn (shiftOut (kick s)) .link1).receiver = (linkOn s .link1).receiver := by
    rw [link]
    refine (apart_fields (pump_link _ .link1 .link1)).2.1.trans ?_
    rw [setSyncOut, linkOn_setLink_same, kick_link1]
  have taken : t = kick (presentNext (takeByte .link1 b (shiftOut (kick s)))) := by
    show receivedByte .link1 b s = _
    have selected : (kick s).pins.selected = true := by rw [kick_pins, hp]
    simp only [receivedByte, selected, if_true, finishShifted_none (kick s) (by rw [kick_link1]; exact ho)]
  obtain ⟨c, presented⟩ := presentNext_link1 (takeByte .link1 b (shiftOut (kick s)))
  rw [taken, kick_link1, kick_queue1, presented, takeByte_unfinished _ _ _ (by rw [receiver]; exact hu), setReceiver,
    linkOn_setLink_same, link]
  exact ⟨rfl, rfl, queue⟩

/-- The frame chosen at the row of the link, as R148 and R175 give it: LINK0 chooses at CS1N_FALL, and an idle LINK1 at a byte
clocked while SDO1 presents a SYNC. -/
theorem row_chooses (b : Byte) (ho : (linkOn s l).outbound = none)
    (h : l = .link1 → s.pins.selected = true ∧ (linkOn s l).syncOut = true ∧ Unfinished (linkOn s l).receiver) :
    ∃ t r v c, exec (if l = .link0 then .cs1nFall else .receivedByte .link1 b) s = .next t ∧ Begun l r v ∧
      linkOn r l = { linkOn s l with syncOut := c } ∧ queueOn r l = queueOn s l ∧ (rateWaits l r ↔ rateWaits l s) ∧
      (linkOn t l).outbound = (linkOn v l).outbound.map (clocked l) ∧ (linkOn t l).replyPending = (linkOn v l).replyPending ∧
      queueOn t l = queueOn v l := by
  cases l with
  | link0 =>
    obtain ⟨link, queue⟩ := cs1nFall_link0 s
    refine ⟨cs1nFall s, s, kick s, (linkOn s .link0).syncOut, rfl, kick_begun s, rfl, rfl, Iff.rfl, ?_, ?_, queue⟩
    · rw [link]
      exact Option.map_id'.symm
    · rw [link]
  | link1 =>
    obtain ⟨hp, hs, hu⟩ := h rfl
    obtain ⟨outbound, pending, queue⟩ := receivedByte_chooses s b hp hs hu ho
    have never : ∀ t, ¬rateWaits .link1 t := fun t h => LinkId.noConfusion h.1
    refine ⟨receivedByte .link1 b s, setSyncOut false (kick s), pump .link1 (setSyncOut false (kick s)), false, rfl,
      pump_begun _ _,
      ?_, ?_, iff_of_false (never _) (never _), outbound, pending, queue⟩
    · rw [setSyncOut, linkOn_setLink_same, kick_link1]
    · exact kick_queue1 s

end

/-- Settles O47: the order of the frames, from the choice of LINK0 and of LINK1 at their rows. -/
theorem outboundFramesAreChosenInOrder : Obligations.OutboundFramesAreChosenInOrder := by
  unfold Obligations.OutboundFramesAreChosenInOrder
  refine ⟨fun s l b => ?_, fun s l => ⟨kick s, kick_begun s, ?_⟩⟩
  · intro u q waits frame free i nothing
    refine ⟨?_, ?_, fun h => ?_⟩
    · rintro o rfl ho hs
      exact attn1_within s ho hs
    · rintro rfl ho
      exact attn1_idle s ho
    · by_cases ho : u.outbound = none
      · obtain ⟨t, r, v, c, he, begun, link, queue, rate, outbound, pending, same⟩ := row_chooses s l b ho h
        have stays : v = r → (linkOn t l).outbound = none ∧ queueOn t l = q := fun e => by
          rw [outbound, same, e, link, show (linkOn s l).outbound = none from ho]
          exact ⟨rfl, queue⟩
        have next : free → reportsNext l r := fun ⟨fo, fw, fp, fh⟩ => by
          rw [reportsNext, link, rate]
          exact ⟨fo, fw, fp, fh⟩
        have nextFrame : ∀ x Q, v = setQueue l Q (setLink l { linkOn r l with outbound := reportOut x 0 } r) →
            (linkOn t l).outbound = frame x ∧ queueOn t l = Q := fun x Q e => by
          rw [outbound, same, e, linkOn_setQueue, linkOn_setLink_same, queueOn_setQueue_same]
          exact ⟨congrArg (fun n => some (Outbound.mk _ _ n)) (Nat.zero_add _), rfl⟩
        refine ⟨t, he, ?_, ?_, ?_, ?_, ?_, ?_, ?_, ?_⟩
        · intro o _ h
          exact absurd (ho.symm.trans h) (Option.some_ne_none o).symm
        · rintro rfl _
          have sync : (linkOn s .link1).syncOut = true := (h rfl).2.1
          simp only [nextOutByte, show (linkOn s .link1).outbound = none from ho, sync, if_true, syncByte]
        · exact fun _ hw => stays (begun.stays (.inr (.inl (rate.2 hw))))
        · intro f _ hw hp hf
          have e := begun.reply f (by rw [link]; exact ho) (fun h => hw (rate.1 h)) (by rw [link]; exact hp) (by rw [link]; exact hf)
          rw [outbound, pending, same, e, linkOn_setLink_same, queueOn_setLink]
          exact ⟨congrArg (fun n => some (Outbound.mk _ _ n)) (Nat.zero_add _), rfl, queue⟩
        · exact fun _ _ hp hh => stays (begun.stays (.inr (.inr (by rw [link]; exact ⟨hp, .inl hh⟩))))
        · intro before x after hf hq hx hb
          have e := begun.resent before x after (next hf) (by rw [queue]; exact hq) hx hb
          rw [queue] at e
          exact nextFrame x _ e
        · intro before x after hf hd hn hq hx hb
          have e := begun.sent before x after (next hf) (by rw [queue]; exact hd) (by rw [queue]; exact hn)
            (by rw [queue]; exact hq) hx hb
          rw [queue] at e
          exact nextFrame x _ e
        · exact fun hf hn => stays (begun.stays (.inr (.inr (by rw [link, queue]; exact ⟨hf.2.2.1, .inr hn⟩))))
      · obtain ⟨t, he, hk⟩ : ∃ t, exec i s = .next t ∧ (l = .link0 → linkOn t l = u ∧ queueOn t l = q) := by
          cases l with
          | link0 =>
            obtain ⟨link, queue⟩ := cs1nFall_link0 s
            obtain ⟨link', queue'⟩ := kick_held s .link0 (.inr ho)
            exact ⟨_, rfl, fun _ => ⟨link.trans link', queue.trans queue'⟩⟩
          | link1 => exact ⟨_, rfl, fun h => LinkId.noConfusion h⟩
        exact ⟨t, he, fun o hl h => ⟨(congrArg Link.outbound (hk hl).1).trans h, (hk hl).2⟩,
          fun _ h => absurd h ho, fun h => absurd h ho, fun _ h => absurd h ho, fun h => absurd h ho,
          fun _ _ _ hf => absurd hf.1 ho, fun _ _ _ hf => absurd hf.1 ho, fun hf => absurd hf.1 ho⟩
  · intro u q leads
    refine ⟨fun o c ho hk hf hw hc => ?_, fun o seq ho hk hf => ⟨fun before r after hq hr hs hb => ?_, fun h => ?_⟩,
      fun h => ?_,
      fun r rest h ha hl => ?_, fun r hp ha ho hr => ?_⟩
    · refine ⟨_, congrArg Host.Outcome.next ?_, kick_begun _⟩
      rw [replySent_ends s l ho hk hf, finishReply_over (kick s) l hc hw]
    · refine ⟨_, congrArg Host.Outcome.next ?_, kick_begun _⟩
      rw [sentNotice_ends s l ho hk hf, finishReport_found (kick s) l hq hr hs hb, kick_now]
    · refine ⟨_, congrArg Host.Outcome.next ?_, kick_begun _⟩
      rw [sentNotice_ends s l ho hk hf, finishReport_missing (kick s) l h]
    · refine ⟨_, congrArg Host.Outcome.next ?_, kick_begun _⟩
      rw [resendExpiry_runs s l (by rwa [← resendTimer_kick]), ← resend_kick]
    · refine ⟨_, congrArg Host.Outcome.next ?_, kick_begun _⟩
      rw [reportRecord_taken s l h, take_waiting r ha hl]
    · exact ⟨_, congrArg Host.Outcome.next (rate_taken s hp ha ho hr), kick_begun _⟩

end Sys2Proof.Machine
end

section
/-! SUPPORT. The statements about the commands of the links: ACK_REPORTS, SET_LINK, RESET,
  the queries and the duplicates (08, 10, 11). -/

namespace Sys2Proof.Machine

-- One proof at a time: proofs elaborated side by side would hold a thread each, and its stack.
set_option Elab.async false

section
variable (s : State) (l : LinkId)

/-! ### A command that changes the links and queues -/

theorem Settled.symm {t : State} (h : Settled s t) : Settled t s :=
  ⟨fun l => (h.links l).symm, fun l => (h.queues l).symm, h.device.symm⟩

/-- A state with the reply of an executed command pending on a link (R146). -/
def answeredOn (l : LinkId) (seq : Byte) (f : List Byte) (u : State) : State :=
  setLink l { (linkOn u l).answered with storedReply := some f, lastSeq := some seq } u

/-- What a command that leaves the links and queues alone leaves in them (R144, R146, R168). -/
theorem arrive_answered {seq : Byte} {payload : List Byte} (h : Ready l seq s) (h1 : payload ≠ [])
    (h2 : payload.length ≤ Config.maxPayload) (status : Status) (results : List Byte) :
    Settled (setQueue l (if isLost s l then (queueOn s l).resume else queueOn s l)
        (setLink l (answeredLink s l seq payload (replyTo seq payload status results)) s))
      (answeredOn l seq (replyTo seq payload status results) (arrive l seq payload s)) := by
  obtain ⟨replied, device⟩ := hostCommand_replied s l (fun _ _ t => ⟨status, results, t⟩) h h1 h2 rfl rfl rfl
  have orphan : isOrphan l (arrive l seq payload s) = false := by simp only [isOrphan, arrive_link s l h]
  rw [hostCommand_ready s l _ h h1 h2] at replied device
  simp only [reply, orphan, Bool.false_eq_true, if_false] at replied device
  refine Settled.trans (t := kick (answeredOn l seq (replyTo seq payload status results) (arrive l seq payload s)))
    ⟨both_links l ?_ ?_, both_links l ?_ ?_, ?_⟩ (Settled.symm _ (kick_settled _))
  · rw [linkOn_setQueue, linkOn_setLink_same]
    exact replied.link
  · rw [linkOn_setQueue, linkOn_setLink_other]
    exact replied.other
  · rw [queueOn_setQueue_same]
    exact replied.queue
  · rw [queueOn_setQueue_other]
    exact replied.otherQueue
  · exact device.trans (arrive_device s l seq payload)

/-- A command on a ready link leaves what its run leaves, with its reply pending or chosen (R146). -/
theorem hostCommand_executes (run : LinkId → List Byte → State → Answer) {seq : Byte} {payload : List Byte}
    (h : Ready l seq s) (h1 : payload ≠ []) (h2 : payload.length ≤ Config.maxPayload) {status : Status}
    {results : List Byte} {u w : State} (ha : run l payload (arrive l seq payload s) = ⟨status, results, u⟩)
    (hi : isOrphan l u = false) (hw : Settled w (answeredOn l seq (replyTo seq payload status results) u)) :
    Replying l (replyTo seq payload status results) (hostCommand run l seq payload s) ∧
      Settled w (hostCommand run l seq payload s) := by
  rw [hostCommand_ready s l run h h1 h2, ha]
  simp only [reply, hi, Bool.false_eq_true, if_false]
  refine ⟨?_, hw.trans (kick_settled _)⟩
  exact pump_waits _ .link0 l (congrArg Link.storedReply (linkOn_setLink_same ..))
    (.inl (congrArg Link.replyPending (linkOn_setLink_same ..)))

/-! ### Records and their flight (R173, R178) -/

/-- What a record is for ACK_REPORTS: its SEQ, its report, and whether it is IN_FLIGHT (R178). -/
def Record.flight (r : Record) : Byte × Report × Bool := (r.seq, r.report, r.standing.isInFlight)

theorem restand_flight {p : Record → Bool} {st : Standing} (h : ∀ r, p r = true → st.isInFlight = r.standing.isInFlight)
    (rs : List Record) : (restand p st rs).map Record.flight = rs.map Record.flight := by
  induction rs with
  | nil => rfl
  | cons r rs ih =>
    by_cases hr : p r = true
    · rw [restand, if_pos hr, List.map_cons, List.map_cons]
      exact congrArg (· :: _) (congrArg (fun b => (r.seq, r.report, b)) (h r hr))
    · rw [restand, if_neg hr, List.map_cons, List.map_cons, ih]

/-- The choice of a frame leaves the records in flight so, and puts no other in flight (R148, R175). -/
theorem pump_flight (m : LinkId) :
    (queueOn (pump l s) m).records.map Record.flight = (queueOn s m).records.map Record.flight := by
  have offered : ∀ {q q' : Queue} {r : Record}, q.offer = some (r, q') →
      q'.records.map Record.flight = q.records.map Record.flight := fun {q q' r} h => by
    unfold Queue.offer at h
    split at h
    · cases h
      refine restand_flight (fun r hr => ?_) _
      rw [(isDue_iff r).1 hr]
      rfl
    · split at h
      · simp only [Option.map_eq_some_iff] at h
        obtain ⟨a, -, h⟩ := h
        cases h
        refine restand_flight (fun r hr => ?_) _
        rw [show r.standing = .waiting from beq_iff_eq.1 hr]
        rfl
      · cases h
  unfold pump
  dsimp only
  split
  · rfl
  split
  · rfl
  split
  · rfl
  unfold chooseReport
  cases hq : (queueOn s l).offer with
  | none => rfl
  | some a =>
    obtain ⟨r, q⟩ := a
    show (queueOn (setQueue l q _) m).records.map _ = _
    rcases eq_or_other l m with rfl | rfl
    · rw [queueOn_setQueue_same]
      exact offered hq
    · rw [queueOn_setQueue_other]
      rfl

theorem kick_flight (m : LinkId) : (queueOn (kick s) m).records.map Record.flight = (queueOn s m).records.map Record.flight :=
  pump_flight s .link0 m

theorem length_of_flight {rs rs' : List Record} (h : rs'.map Record.flight = rs.map Record.flight) :
    rs'.length = rs.length := by
  have := congrArg List.length h
  simpa only [List.length_map] using this

theorem any_of_flight {rs rs' : List Record} (h : rs'.map Record.flight = rs.map Record.flight) :
    (rs'.any fun r => r.standing.isInFlight) = rs.any fun r => r.standing.isInFlight := by
  have seen : ∀ rs : List Record,
    (rs.any fun r => r.standing.isInFlight) = (rs.map Record.flight).any fun x => x.2.2 := fun rs => by
    rw [List.any_map]
    rfl
  rw [seen, seen, h]

theorem inFlight_of_flight {q q' : Queue} (h : q'.records.map Record.flight = q.records.map Record.flight) :
    q'.inFlight = q.inFlight := by
  have seen : ∀ q : Queue, q.inFlight = ((q.records.map Record.flight).filter fun x => x.2.2).length := fun q => by
    rw [List.filter_map, List.length_map]
    rfl
  rw [seen, seen, h]

theorem releasable_of_flight {q q' : Queue} (seq : Byte) (h : q'.records.map Record.flight = q.records.map Record.flight) :
    q'.releasable seq = q.releasable seq := by
  have seen : ∀ q : Queue, q.releasable seq =
      ((q.records.map Record.flight).findIdx? fun x => x.1 == seq && x.2.2).map (· + 1) := fun q => by
    rw [List.findIdx?_map]
    rfl
  rw [seen, seen, h]

/-! ### The release of records (R177, R178, R179) -/

theorem release_apart {p q : Queue} (n x : Nat) (h : q.apart = p.apart)
    (hf : q.records.map Record.flight = p.records.map Record.flight) :
    (q.release n x).apart = (p.release n x).apart := by
  obtain ⟨-, seq, dropped, -, accepting⟩ := queue_apart_fields h
  have left : (q.records.drop n).map Record.flight = (p.records.drop n).map Record.flight := by
    rw [List.map_drop, hf, List.map_drop]
  have records : (q.records.drop n).map (fun r => ({ r with standing := .waiting } : Record)) =
      (p.records.drop n).map fun r => { r with standing := .waiting } := by
    rw [List.map_drop, show q.records.map _ = _ from congrArg Queue.records h, List.map_drop]
    rfl
  unfold Queue.release Queue.reportOverflow
  dsimp only
  rw [any_of_flight left]
  by_cases hd : p.dropped = 0
  · simp only [dropped, hd, if_true, Queue.apart, records, seq, accepting]
  · simp only [dropped, hd, if_false, Queue.apart, Queue.append, List.map_append, records, seq, accepting]

theorem releasable_none {q : Queue} {n : Byte} (h : ∀ x ∈ q.records, x.seq ≠ n ∨ x.standing.isInFlight = false) :
    q.releasable n = none := by
  rw [Queue.releasable, Option.map_eq_none_iff, List.findIdx?_eq_none_iff]
  intro x hx
  rcases h x hx with h | h <;> simp [h]

theorem releasable_some {q : Queue} {n : Byte} {before after : List Record} {r : Record}
    (hq : q.records = before ++ r :: after) (hr : r.seq = n) (hf : r.standing.isInFlight = true)
    (hb : ∀ x ∈ before, x.seq ≠ n ∨ x.standing.isInFlight = false) : q.releasable n = some (before.length + 1) := by
  have passed : before.findIdx? (fun r => r.seq == n && r.standing.isInFlight) = none := by
    rw [List.findIdx?_eq_none_iff]
    intro x hx
    rcases hb x hx with h | h <;> simp [h]
  have found : (r.seq == n && r.standing.isInFlight) = true := by rw [hr, hf, beq_self_eq_true]; rfl
  rw [Queue.releasable, hq, List.findIdx?_append, passed, List.findIdx?_cons, found]
  simp

theorem setQueue_setQueue (q q' : Queue) : setQueue l q (setQueue l q' s) = setQueue l q s := by
  cases s
  cases l <;> rfl

/-! ### The settings of a link (R151, R152, R156) -/

/-- Two updates of link interfaces that do not touch each other's fields, in either order. -/
theorem setLink_comm (m : LinkId) {g h : Link → Link} (hc : ∀ u, g (h u) = h (g u)) :
    setLink l (g (linkOn (setLink m (h (linkOn s m)) s) l)) (setLink m (h (linkOn s m)) s) =
      setLink m (h (linkOn (setLink l (g (linkOn s l)) s) m)) (setLink l (g (linkOn s l)) s) := by
  rcases eq_or_other l m with rfl | rfl
  · rw [linkOn_setLink_same, linkOn_setLink_same, setLink_setLink, setLink_setLink, hc]
  · rw [linkOn_setLink_other, show linkOn (setLink (otherLink l) (h (linkOn s (otherLink l))) s) l = linkOn s l from ?_]
    · cases s
      cases l <;> rfl
    · cases l <;> rfl

/-- The baud rates after a SET_LINK, in a table (R151, R152). -/
theorem baudAfterSetLink_eq (a : SetLinkArgs) (b : Baud) : baudAfterSetLink l a b =
    if a.target = .link1 then b else if a.rate = b.rate then ⟨b.rate, none, none⟩ else ⟨b.rate, some a.rate, some l⟩ := by
  unfold baudAfterSetLink
  cases a.target <;> rfl

/-- What SET_LINK makes of its target, at this time (R151, R164). -/
def newSettings (now : Nat) (a : SetLinkArgs) (u : Link) : Link :=
  { u with
    timeout := a.timeout, resend := a.resend
    supervision := if a.timeout = 0 then none
      else if u.state = .up ∧ u.supervision = none then some (now + a.timeout * 1000) else u.supervision }

/-- An update of a link interface that leaves its current command leaves that of every link. -/
theorem isOrphan_setLink (m : LinkId) (f : Link → Link) (hf : ∀ u, (f u).current = u.current) :
    isOrphan l (setLink m (f (linkOn s m)) s) = isOrphan l s := by
  have same : (linkOn (setLink m (f (linkOn s m)) s) l).current = (linkOn s l).current := by
    rcases eq_or_other m l with rfl | rfl
    · rw [linkOn_setLink_same, hf]
    · rw [linkOn_setLink_other]
  unfold isOrphan
  rw [same]

theorem isOrphan_arrive {seq : Byte} {payload : List Byte} (h : Ready l seq s) :
    isOrphan l (arrive l seq payload s) = false := by
  simp only [isOrphan, arrive_link s l h]

/-- A command that updates a link interface, in fields that its reply does not touch, on a link that is ready (R146). -/
theorem updates_link (run : LinkId → List Byte → State → Answer) {seq : Byte} {payload : List Byte} (h : Ready l seq s)
    (h1 : payload ≠ []) (h2 : payload.length ≤ Config.maxPayload) (m : LinkId) (f : Link → Link) (b : Baud)
    (hcur : ∀ u, (f u).current = u.current) (hapart : ∀ u, (f u).apart = (f u.apart).apart)
    (hcomm : ∀ u, { (f u).answered with storedReply := some (replyTo seq payload .ok []), lastSeq := some seq } =
      f { u.answered with storedReply := some (replyTo seq payload .ok []), lastSeq := some seq })
    (ha : run l payload (arrive l seq payload s) = done (setLink m (f (linkOn (arrive l seq payload s) m))
      { arrive l seq payload s with baud := b })) :
    let v := setQueue l (if isLost s l then (queueOn s l).resume else queueOn s l)
      (setLink l (answeredLink s l seq payload (replyTo seq payload .ok [])) { s with baud := b })
    Replying l (replyTo seq payload .ok []) (hostCommand run l seq payload s) ∧
      Settled (setLink m (f (linkOn v m)) v) (hostCommand run l seq payload s) := by
  intro v
  have answered : Settled v (answeredOn l seq (replyTo seq payload .ok []) { arrive l seq payload s with baud := b }) :=
    settled_baud _ b (arrive_answered s l h h1 h2 .ok [])
  refine hostCommand_executes s l run h h1 h2 ha ?_ ?_
  · exact (isOrphan_setLink { arrive l seq payload s with baud := b } l m f hcur).trans (isOrphan_arrive s l h)
  · exact (congrArg (Settled _) (setLink_comm { arrive l seq payload s with baud := b } l m
      (g := fun u => { u.answered with storedReply := some (replyTo seq payload .ok []), lastSeq := some seq }) hcomm)).mpr
        (settled_update m f answered hapart)

/-- Argument bytes of a frame leave room for the command code (R143). -/
theorem cons_fits (c : Byte) {a : List Byte} (h : a.length ≤ 199) : (c :: a).length ≤ Config.maxPayload := by
  simp only [List.length_cons, Config.maxPayload]
  omega

theorem setLinkArgs_length (a : SetLinkArgs) : (setLinkArgs a).length = 6 := by simp [setLinkArgs]

/-- The check of RESET (R156). -/
theorem otherOwnsAny_iff : otherOwnsAny l s = true ↔ ∃ r : Fin 20, s.claims[r].owner = some (otherLink l) := by
  simp only [otherOwnsAny, List.any_eq_true, heldByOther_eq, decide_eq_true_eq, Vector.mem_toList_iff]
  constructor
  · rintro ⟨c, hc, ho⟩
    obtain ⟨i, hi, rfl⟩ := Vector.getElem_of_mem hc
    exact ⟨⟨i, hi⟩, ho⟩
  · rintro ⟨r, hr⟩
    exact ⟨_, Vector.getElem_mem r.isLt, hr⟩

end

/-- Settles O51: the records up to the one named are released, and a SEQ that names none releases nothing. -/
theorem ackReportsReleasesRecords : Obligations.AckReportsReleasesRecords := by
  unfold Obligations.AckReportsReleasesRecords
  intro s l seq n hr hl q i p
  have queue : queueOn (arrive l seq p s) l = queueOn (kick s) l := by rw [arrive_queue, hl]; rfl
  have flight : (queueOn (arrive l seq p s) l).records.map Record.flight = q.records.map Record.flight := by
    rw [queue]
    exact kick_flight s l
  have apart : (queueOn (arrive l seq p s) l).apart = q.apart := by
    rw [queue]
    exact kick_queue s l
  have resend : (linkOn (arrive l seq p s) l).resend = (linkOn s l).resend := by
    rw [arrive_link s l hr]
    exact resend_kick s l
  have fits : p.length ≤ Config.maxPayload := by simp [p, Config.maxPayload]
  refine ⟨fun h => ?_, fun before r after hq hs hf hb => ?_⟩
  · refine answered_of_run s l runAckReports rfl hr (List.cons_ne_nil _ _) fits (v := arrive l seq p s) ?_ rfl rfl
      (arrive_device s l seq p)
    rw [runAckReports, parseSeq_byte, withArgs, releasable_of_flight n flight, releasable_none h]
    rfl
  · intro timer left f
    refine ⟨_, rfl, ?_⟩
    have released : q.release (before.length + 1) (s.now + (linkOn s l).resend * 1000) = left := by
      have rest : q.records.drop (before.length + 1) = after := by rw [hq]; simp
      unfold Queue.release Queue.reportOverflow
      dsimp only
      rw [rest]
      by_cases hd : q.dropped = 0
      · rw [if_pos hd]
        exact (if_pos hd).symm
      · rw [if_neg hd]
        exact (if_neg hd).symm
    have same := released ▸ release_apart (before.length + 1) (s.now + (linkOn s l).resend * 1000) apart flight
    have run : runAckReports l p (arrive l seq p s) = ⟨.ok, [BitVec.ofNat 8 (before.length + 1),
      BitVec.ofNat 8 left.records.length],
        setQueue l ((queueOn (arrive l seq p s) l).release (before.length + 1) (s.now + (linkOn s l).resend * 1000))
          (arrive l seq p s)⟩ := by
      rw [runAckReports, parseSeq_byte, withArgs, releasable_of_flight n flight, releasable_some hq hs hf hb]
      simp only [afterMs, arrive_now, resend]
      rw [(queue_apart_fields same).1]
    refine hostCommand_executes s l runAckReports hr (List.cons_ne_nil _ _) fits run (isOrphan_arrive s l hr) ?_
    have answered := arrive_answered s l hr (List.cons_ne_nil _ _) fits .ok
      [BitVec.ofNat 8 (before.length + 1), BitVec.ofNat 8 left.records.length]
    exact setQueue_setQueue _ l left _ ▸ settled_setQueue l answered same

/-- Settles O52: SET_LINK updates its target beside the reply, and RESET the link it came on. -/
theorem setLinkAndResetActOnTheLink : Obligations.SetLinkAndResetActOnTheLink := by
  unfold Obligations.SetLinkAndResetActOnTheLink
  intro s l seq hr q
  refine ⟨fun a ht h1 h2 => ?_, fun h => ?_, fun h => ?_, fun h => ⟨_, rfl, l, .inl ⟨h, rfl⟩⟩⟩
  · intro p f v u timer
    refine ⟨_, rfl, ?_⟩
    have executed := updates_link s l runSetLink hr (List.cons_ne_nil _ _)
      (by simp [p, setLinkArgs_length, Config.maxPayload] : p.length ≤ Config.maxPayload) a.target
      (newSettings (arrive l seq p s).now a) (baudAfterSetLink l a (arrive l seq p s).baud) (fun _ => rfl) (fun _ => rfl)
      (fun _ => rfl) (by rw [runSetLink, parseSetLink_iff.2 ⟨⟨ht, h1, h2⟩, rfl⟩]; rfl)
    rwa [arrive_now, arrive_baud, baudAfterSetLink_eq] at executed
  · refine answered_of_effect s l runReset rfl hr (List.cons_ne_nil _ _) (by decide) fun L Q _ _ => ?_
    rw [runReset, parseNone_code, withArgs, if_pos ((otherOwnsAny_iff (withLinks L Q s) l).2 h), refuse]
  · intro f
    refine ⟨_, rfl, ?_⟩
    have free : ¬otherOwnsAny l (arrive l seq [0x07] s) = true := by
      rw [otherOwnsAny_iff, arrive_claims]
      rintro ⟨r, hr⟩
      exact h r hr
    have executed := updates_link s l runReset hr (payload := [0x07]) (List.cons_ne_nil _ _) (by decide) l
      (fun u => { u with resetWait := true }) (arrive l seq [0x07] s).baud (fun _ => rfl) (fun _ => rfl) (fun _ => rfl)
      (by rw [runReset, parseNone_code, withArgs, if_neg free])
    rw [arrive_baud] at executed
    obtain ⟨replying, settled⟩ := executed
    rw [linkOn_setQueue, linkOn_setLink_same] at settled
    exact ⟨replying, (congrArg (fun w => Settled (setQueue l q w) _) (setLink_setLink s l _ _)).mp settled⟩

section
variable (s : State) (l : LinkId)

/-! ### What QUERY_LINK shows (R154) -/

/-- QUERY_LINK shows nothing of what the choice of a frame changes. -/
theorem linkResults_settled {t : State} (m : LinkId) (h : Settled s t)
    (hf : (queueOn t m).records.map Record.flight = (queueOn s m).records.map Record.flight) :
    linkResults t m = linkResults s m := by
  obtain ⟨state, -, inbound, -, lastSeq, -, bad, truncated, discarded, duplicates, timeout, resend, supervision, -⟩ :=
    apart_fields (h.links m)
  obtain ⟨-, -, -, -, -, -, -, -, baud, route, -⟩ := device_fields h.device
  simp only [linkResults, state, inbound, lastSeq, bad, truncated, discarded, duplicates, timeout, resend, supervision, baud,
    route, length_of_flight hf, inFlight_of_flight hf]

/-- The arrival of a frame on a link without a current command (R144, R146). -/
theorem arrive_noticed {seq : Byte} {payload : List Byte} (hc : (linkOn s l).current = none) (hi : (linkOn s l).inbound = []) :
    arrive l seq payload s = noticed l { linkOn (kick s) l with
      current := some ⟨⟨seq, payload, isLost s l⟩, false, false⟩
      holdReports := (linkOn (kick s) l).holdReports || isLost s l } (kick s) := by
  obtain ⟨-, -, inbound, current, -⟩ := apart_fields (kick_link s l)
  rw [hi] at inbound
  rw [hc] at current
  rw [arrive, acceptFrame_noticed, inbound, if_pos (show ([] : List Frame).length < 2 by decide), buffered]
  simp only [inbound, current, List.nil_append, isLost_kick]

theorem noticed_flight {t : State} {u v : Link}
    (hl : isLost t l = isLost s l) (h : (queueOn t l).records.map Record.flight = (queueOn s l).records.map Record.flight) :
    (queueOn (noticed l v t) l).records.map Record.flight = (queueOn (noticed l u s) l).records.map Record.flight := by
  rw [noticed, noticed, queueOn_setQueue_same, queueOn_setQueue_same, hl]
  split
  · simp only [Queue.resume, Queue.append, List.map_append, h]
  · exact h

/-- A link that has just heard the query shows itself as its notice leaves it (R154, R163). -/
theorem linkResults_arrive {seq : Byte} {payload : List Byte} (hc : (linkOn s l).current = none) (hi : (linkOn s l).inbound = []) :
    linkResults (arrive l seq payload s) l = linkResults (noticed l (linkOn s l) s) l := by
  rw [arrive_noticed s l hc hi, ← linkResults_settled (noticed l (linkOn s l) s) l
    (noticed_settled l (kick_settled s) (v := linkOn (kick s) l) (kick_link s l))
    (noticed_flight s l (isLost_kick s l) (kick_flight s l))]
  simp only [linkResults, noticed, linkOn_setQueue, linkOn_setLink_same, queueOn_setQueue_same]
  rfl

theorem linkResults_arrive_other {seq : Byte} {payload : List Byte} :
    linkResults (arrive l seq payload s) (otherLink l) = linkResults s (otherLink l) := by
  have route : (kick s).route = s.route := (device_fields (kick_device s)).2.2.2.2.2.2.2.2.2.1
  rw [← linkResults_settled s (otherLink l) (kick_settled s) (kick_flight s _)]
  simp only [linkResults, arrive_other, arrive_otherQueue, arrive_baud, arrive_route, kick_baud, route]

/-! ### A frame with the last SEQ (R147) -/

/-- A frame on a link without a current command arrives whatever its SEQ (R144). -/
theorem present_arrives {seq : Byte} {payload : List Byte} (hc : (linkOn s l).current = none) (h1 : payload ≠ [])
    (h2 : payload.length ≤ Config.maxPayload) : present l seq payload (kick s) = arrive l seq payload s := by
  have current : (linkOn (kick s) l).current = none := (apart_fields (kick_link s l)).2.2.2.1.trans hc
  have some : payload.isEmpty = false := by rwa [List.isEmpty_eq_false_iff]
  simp only [present, isWaiting, current, some, decide_eq_false (Nat.not_lt.2 h2), Bool.or_self, Bool.false_eq_true,
    if_false, arrive]

/-- A frame on a link that is not LOST changes its link interface alone (R144, R163). -/
theorem arrive_heard {seq : Byte} {payload : List Byte} (hc : (linkOn s l).current = none) (hi : (linkOn s l).inbound = [])
    (hl : isLost s l = false) : arrive l seq payload s = setLink l { linkOn (kick s) l with
      state := .up, supervision := restarted (kick s) (linkOn (kick s) l)
      current := some ⟨⟨seq, payload, false⟩, false, false⟩ } (kick s) := by
  rw [arrive_noticed s l hc hi, noticed, isLost_kick, hl, if_neg Bool.false_ne_true, Bool.or_false]
  exact setQueue_queueOn (setLink l _ (kick s)) l

/-- The stored reply of a duplicate is pending again (R147). -/
theorem takeDuplicate_repeats {seq : Byte} {f payload : List Byte} (hc : (linkOn s l).current = none)
    (hi : (linkOn s l).inbound = []) (hl : isLost s l = false) (hf : (linkOn s l).storedReply = some f) :
    let t := kick (takeDuplicate l (arrive l seq payload s))
    Replying l f t ∧ Settled (setLink l { linkOn s l with
      state := .up, supervision := restarted s (linkOn s l), current := some ⟨⟨seq, payload, false⟩, true, false⟩
      duplicates := countUp (linkOn s l).duplicates } s) t := by
  have taken : takeDuplicate l (arrive l seq payload s) = setLink l { linkOn (kick s) l with
      state := .up, supervision := restarted (kick s) (linkOn (kick s) l), replyPending := true
      current := some ⟨⟨seq, payload, false⟩, true, false⟩,
        duplicates := countUp (linkOn (kick s) l).duplicates } (kick s) := by
    rw [arrive_heard s l hc hi hl, takeDuplicate, linkOn_setLink_same, setLink_setLink]
    rfl
  have stored : (linkOn (kick s) l).storedReply = some f := (apart_fields (kick_link s l)).2.2.2.2.2.1.trans hf
  have timer : restarted (kick s) (linkOn (kick s) l) = restarted s (linkOn s l) := by
    simp only [restarted, afterMs, kick_now, (apart_fields (kick_link s l)).2.2.2.2.2.2.2.2.2.2.1]
  rw [taken, timer]
  refine ⟨pump_waits _ .link0 l (by rw [linkOn_setLink_same]; exact stored) (.inl (by rw [linkOn_setLink_same])),
    (settled_setLink l (kick_settled s) ?_).trans (kick_settled _)⟩
  have apart := kick_link s l
  simp only [Link.apart, Link.mk.injEq] at apart ⊢
  simp only [apart, and_self]

/-- A frame with the last SEQ is a duplicate when it has become current (R147). -/
theorem arrive_duplicate {seq : Byte} {payload : List Byte} (hc : (linkOn s l).current = none) (hi : (linkOn s l).inbound = [])
    (hl : isLost s l = false) (hs : (linkOn s l).lastSeq = some seq) :
    isWaiting l seq payload (arrive l seq payload s) = true ∧ isDuplicate l seq (arrive l seq payload s) = true ∧
      isOrphan l (arrive l seq payload s) = false := by
  have last : (linkOn (kick s) l).lastSeq = some seq := (apart_fields (kick_link s l)).2.2.2.2.1.trans hs
  rw [arrive_heard s l hc hi hl]
  simp [isWaiting, isDuplicate, isOrphan, last]

end

/-- Settles O53: the commands that leave the links alone, and the repetition of a reply. -/
theorem linkCommandsAreAnswered : Obligations.LinkCommandsAreAnswered := by
  unfold Obligations.LinkCommandsAreAnswered
  refine ⟨fun s l seq hr => ⟨fun data hd => ?_, fun data h1 h2 => ?_, ?_, fun m => ?_, ?_, ?_, fun code args hc ha => ?_⟩,
    fun s l seq f hc hi hl hs hf => ?_⟩
  · refine answered_of_effect s l runPing rfl hr (List.cons_ne_nil _ _) (cons_fits _ (by omega)) fun L Q _ _ => ?_
    rw [runPing, parsePing, judged_ok_iff.2 ⟨by simp only [List.length_cons, decide_eq_true_eq]; omega, rfl⟩]
    rfl
  · refine answered_of_effect s l runPing rfl hr (List.cons_ne_nil _ _) (cons_fits _ h2) fun L Q _ _ => ?_
    rw [runPing, parsePing, judged_badLength (by simp only [List.length_cons, decide_eq_false_iff_not]; omega)]
    rfl
  · exact answered_of_effect s l runIdentify rfl hr (List.cons_ne_nil _ _) (by decide) fun L Q _ _ => rfl
  · refine answered_of_effect s l runSetRoute rfl hr (List.cons_ne_nil _ _) (by simp [Config.maxPayload]) fun L Q _ _ => ?_
    rw [runSetRoute, parseLink_iff.2 rfl]
    rfl
  · refine answered_of_run s l runQueryLink rfl hr (List.cons_ne_nil _ _) (by simp [Config.maxPayload])
      (v := arrive l seq [0x04, linkCode (otherLink l)] s) ?_ rfl rfl (arrive_device ..)
    rw [runQueryLink, parseLink_iff.2 rfl, withArgs, linkResults_arrive_other]
    rfl
  · refine answered_of_run s l runQueryLink rfl hr (List.cons_ne_nil _ _) (by simp [Config.maxPayload])
      (v := arrive l seq [0x04, linkCode l] s) ?_ rfl rfl (arrive_device ..)
    rw [runQueryLink, parseLink_iff.2 rfl, withArgs, linkResults_arrive s l hr.1 hr.2.1]
    rfl
  · refine answered_of_effect s l runUnknown ?_ hr (List.cons_ne_nil _ _) (cons_fits _ ha) fun L Q _ _ => rfl
    have unlisted : listedCodes.contains code = false := by simpa using hc
    show Host.Outcome.next (if listedCodes.contains code then s else _) = _
    rw [unlisted]
    rfl
  · intro repeated
    refine ⟨fun p h1 h2 => ⟨_, rfl, ?_⟩, fun args h => ⟨_, rfl, ?_⟩⟩
    · obtain ⟨waiting, duplicate, -⟩ := arrive_duplicate s l (payload := p) hc hi hl hs
      have taken : duplicateFrame l seq p s = kick (takeDuplicate l (arrive l seq p s)) := by
        simp only [duplicateFrame, present_arrives s l hc (List.ne_nil_of_length_pos h1) h2, waiting, duplicate,
          Bool.and_self, if_true]
      rw [taken]
      exact takeDuplicate_repeats s l hc hi hl hf
    · obtain ⟨waiting, duplicate, orphan⟩ := arrive_duplicate s l (payload := 0x06 :: args) hc hi hl hs
      have taken : hostCommand runSetRoute l seq (0x06 :: args) s = kick (takeDuplicate l (arrive l seq (0x06 :: args) s)) := by
        simp only [hostCommand, present_arrives s l hc (List.cons_ne_nil _ _) (cons_fits _ h), waiting, execute, duplicate, orphan,
          Bool.not_false, Bool.and_self, if_true]
      rw [taken]
      exact takeDuplicate_repeats s l hc hi hl hf

end Sys2Proof.Machine
end

section
/-! SUPPORT. The statement about the validation of every command: its length, its operands, and whose resource it acts on (09, 11). -/

namespace Sys2Proof.Machine

-- One proof at a time: proofs elaborated side by side would hold a thread each, and its stack.
set_option Elab.async false

/-! ### What the judgement of operands refuses (R186, R187) -/

section
variable {α : Type}

/-- A wrong length is refused first, then bytes that spell nothing. -/
def Refuses (r : Except Status α) (fits spelled : Prop) : Prop :=
  (¬fits → r = .error .badLength) ∧ (fits → ¬spelled → r = .error .badValue)

/-- A judgement refuses by its check of the length, and by the operands that it accepts. -/
theorem refuses_of {b : Bool} {o : Option α} {fits spelled : Prop} (length : b = true ↔ fits)
    (spells : ∀ x, judged b o = .ok x → spelled) : Refuses (judged b o) fits spelled :=
  ⟨fun h => judged_badLength (by rwa [← length, Bool.not_eq_true] at h),
    fun h hx => judged_badValue (length.2 h) fun x e => hx (spells x e)⟩

end

section
variable {c : Byte} {a : List Byte}

theorem length_iff {n : Nat} : ((c :: a).length == n + 1) = true ↔ a.length = n := by
  rw [beq_iff_eq, List.length_cons, Nat.add_right_cancel_iff]

theorem length_or_iff {n m : Nat} : ((c :: a).length == n + 1 || (c :: a).length == m + 1) = true ↔ a.length = n ∨ a.length = m := by
  rw [Bool.or_eq_true, length_iff, length_iff]

theorem parseNone_refuses : Refuses (parseNone (c :: a)) (a.length = 0) True :=
  refuses_of length_iff fun _ _ => trivial

theorem parsePing_refuses : Refuses (parsePing (c :: a)) (a.length ≤ 16) True := by
  refine refuses_of ?_ fun _ _ => trivial
  rw [decide_eq_true_eq, List.length_cons]
  omega

theorem parseSeq_refuses : Refuses (parseSeq (c :: a)) (a.length = 1) True :=
  refuses_of length_iff fun _ _ => trivial

theorem parseTrack_refuses : Refuses (parseTrack (c :: a)) (a.length = 1) (onlyTrack a) :=
  refuses_of length_iff fun k h => ⟨k, parseTrack_iff.1 h⟩

theorem parseLine_refuses : Refuses (parseLine (c :: a)) (a.length = 1) (onlyLine a) :=
  refuses_of length_iff fun n h => ⟨n, parseLine_iff.1 h⟩

theorem parseLink_refuses : Refuses (parseLink (c :: a)) (a.length = 1) (onlyLink a) :=
  refuses_of length_iff fun m h => ⟨m, parseLink_iff.1 h⟩

theorem parseResource_refuses : Refuses (parseResource (c :: a)) (a.length = 1) (∃ r : Fin 20, a = [indexByte r]) :=
  refuses_of length_iff fun r h => ⟨r, parseResource_iff.1 h⟩

theorem parseSetLink_refuses : Refuses (parseSetLink (c :: a)) (a.length = 6) (∃ x, setLinkFits x ∧ a = setLinkArgs x) :=
  refuses_of length_iff fun x h => ⟨x, parseSetLink_iff.1 h⟩

theorem parseClaim_refuses :
    Refuses (parseClaim (c :: a)) (a.length = 2) (∃ (r : Fin 20) (p : LossPolicy), a = [indexByte r, p.code]) :=
  refuses_of length_iff fun (r, p) h => ⟨r, p, parseClaim_iff.1 h⟩

theorem parseSetTrack_refuses :
    Refuses (parseSetTrack (c :: a)) (a.length = 21) (∃ k c, trackConfigFits c ∧ a = setTrackArgs k c) :=
  refuses_of length_iff fun (k, x) h => ⟨k, x, parseSetTrack_iff.1 h⟩

theorem parseTrackValue_refuses : Refuses (parseTrackValue (c :: a)) (a.length = 7)
    (∃ (k : TrackId) (x : Int), inRange x = true ∧ a = indexByte k :: leInt 6 x) :=
  refuses_of length_iff fun (k, x) h => ⟨k, x, parseTrackValue_iff.1 h⟩

theorem parseHome_refuses : Refuses (parseHome (c :: a)) (a.length = 8) (∃ k : TrackId,
    (∃ x, inRange x = true ∧ a = indexByte k :: 1 :: leInt 6 x) ∨ ∃ v : List Byte, v.length = 6 ∧ a = indexByte k :: 0 :: v) :=
  refuses_of length_iff fun (k, _) h => ⟨k, parseHome_spells h⟩

theorem parseSetSim_refuses : Refuses (parseSetSim (c :: a)) (a.length = 5)
    (∃ (k : TrackId) (v : Int), -10000000 ≤ v ∧ v ≤ 10000000 ∧ a = indexByte k :: leInt 4 v) :=
  refuses_of length_iff fun (k, v) h => ⟨k, v, and_assoc.1 (parseSetSim_iff.1 h)⟩

theorem parseCancelCue_refuses : Refuses (parseCancelCue (c :: a)) (a.length = 3)
    (∃ (k : TrackId) (id : BitVec 16), a = indexByte k :: le 2 id.toNat) :=
  refuses_of length_iff fun (k, id) h => ⟨k, id, parseCancelCue_iff.1 h⟩

theorem parseFlush_refuses : Refuses (parseFlush (c :: a)) (a.length = 1 ∨ a.length = 2)
    (onlyTrack a ∨ ∃ (k : TrackId) (m : LineId), a = [indexByte k, indexByte m]) :=
  refuses_of length_or_iff fun (k, n) h => match n, h with
    | none, h => .inl ⟨k, parseFlush_iff.1 h⟩
    | some m, h => .inr ⟨k, m, parseFlush_iff.1 h⟩

theorem parseQueryCue_refuses : Refuses (parseQueryCue (c :: a)) (a.length = 6)
    (∃ (k : TrackId) (key : CueKey), a = indexByte k :: key.origin :: key.bytes) :=
  refuses_of length_iff fun (k, key) h => ⟨k, key, parseQueryCue_iff.1 h⟩

theorem parseQuerySchedule_refuses : Refuses (parseQuerySchedule (c :: a)) (a.length = 4)
    (∃ (k : TrackId) (i m : Nat), i ≤ 511 ∧ 1 ≤ m ∧ m ≤ 8 ∧ a = indexByte k :: le 2 i ++ [BitVec.ofNat 8 m]) :=
  refuses_of length_iff fun (k, i, m) h => by
    obtain ⟨⟨place, one, eight⟩, spelled⟩ := parseQuerySchedule_iff.1 h
    exact ⟨k, i, m, place, one, eight, spelled⟩

theorem parseSetMark_refuses :
    Refuses (parseSetMark (c :: a)) (a.length = 16) (∃ k c, markConfigFits c ∧ a = setMarkArgs k c) :=
  refuses_of length_iff fun (k, x) h => ⟨k, x, parseSetMark_iff.1 h⟩

theorem parseSetLine_refuses :
    Refuses (parseSetLine (c :: a)) (a.length = 10) (∃ m c, lineFits c ∧ a = setLineArgs m c) :=
  refuses_of length_iff fun (n, x) h => ⟨n, x, parseSetLine_iff.1 h⟩

theorem parseSetProfile_refuses :
    Refuses (parseSetProfile (c :: a)) (a.length = 14) (∃ i f, profileFits f ∧ a = setProfileArgs i f) :=
  refuses_of length_iff fun (i, f) h => ⟨i, f, parseSetProfile_iff.1 h⟩

theorem parseForceLine_refuses : Refuses (parseForceLine (c :: a)) (a.length = 3)
    (∃ (m : LineId) (w : Nat), 1 ≤ w ∧ w ≤ 65535 ∧ a = indexByte m :: le 2 w) :=
  refuses_of length_iff fun (n, w) h => ⟨n, w, and_assoc.1 (parseForceLine_iff.1 h)⟩

theorem parseClearLineFault_refuses : Refuses (parseClearLineFault (c :: a)) (a.length = 2)
    (∃ (m : LineId) (ks : FaultSet), ks ≠ ⟨false, false, false⟩ ∧ a = [indexByte m, ks.code]) :=
  refuses_of length_iff fun (n, f) h => ⟨n, f, parseClearLineFault_iff.1 h⟩

theorem parseSetSupervision_refuses : Refuses (parseSetSupervision (c :: a)) (a.length = 2 ∨ a.length = 6)
    (∃ ms, periodFits ms ∧ (a = le 2 ms ∨
      ∃ (m : LineId) (masks : FaultSet) (b : Nat), b ≤ 1000 ∧ a = le 2 ms ++ [indexByte m, masks.code] ++ le 2 b)) :=
  refuses_of length_or_iff fun (ms, entry) h => by
    cases entry with
    | none =>
      obtain ⟨fits, spelled⟩ := parseSetSupervision_period.1 h
      exact ⟨ms, fits, .inl spelled⟩
    | some e =>
      obtain ⟨⟨fits, bound⟩, spelled⟩ := parseSetSupervision_entry.1 h
      exact ⟨ms, fits, .inr ⟨e.line, e.masked, e.blankTime, bound, spelled⟩⟩

/-- The flags byte is read bit by bit (R186, R187). -/
theorem flagged_eq (size bit : Nat) : flagged (a.getD 2 0) bit size = sizeIf ((fieldAt (c :: a) 3 1).testBit bit) size := by
  have read : fieldAt (c :: a) 3 1 = (a.getD 2 0).toNat := by
    match a with
    | [] => rfl
    | [_] => rfl
    | [_, _] => rfl
    | _ :: _ :: x :: _ => simp [fieldAt, unLe]
  rw [flagged, read]
  rfl

theorem parseAddCue_refuses :
    Refuses (parseAddCue (c :: a)) (a.length = addCueLength a) (∃ x, addCueFits x ∧ a = addCueArgs x) := by
  refine refuses_of ?_ fun x h => ⟨x, parseAddCue_iff.1 h⟩
  simp only [addCueLength, flagged_eq (c := c)]
  rw [Bool.and_eq_true, decide_eq_true_eq, beq_iff_eq, List.length_cons]
  omega

theorem parseSetTemplate_refuses : Refuses (parseSetTemplate (c :: a)) (a.length = setTemplateLength a)
    (∃ k e t, templateFits t ∧ a = setTemplateArgs k e t) := by
  refine refuses_of ?_ fun (k, e, t) h => ⟨k, e, t, parseSetTemplate_iff.1 h⟩
  simp only [setTemplateLength, flagged_eq (c := c)]
  rw [Bool.and_eq_true, decide_eq_true_eq, beq_iff_eq, List.length_cons]
  omega

end

/-! ### The forms of Table 11-3 -/

section
variable (s : State) (l : LinkId) (seq : Byte) (a : List Byte)

/-- The command of this form is refused by its length, and by what it spells (R186). -/
def Validated (x : CommandForm) : Prop :=
  (¬x.lengthFits → Answered x.command l seq (x.code :: a) .badLength [] s s) ∧
    (x.lengthFits → ¬x.spelled → Answered x.command l seq (x.code :: a) .badValue [] s s)

variable {s l seq a} (hr : Ready l seq s) (ha : a.length ≤ 199)
include hr ha

/-- A command judges its operands before everything else (R186). -/
theorem validated {α : Type} {run : LinkId → List Byte → State → Answer} {parse : List Byte → Except Status α} {i : Instr}
    {c : Byte} {fits spelled : Prop} (hi : exec i s = .next (hostCommand run l seq (c :: a) s))
    (hrun : ∀ u, ∃ f, run l (c :: a) u = withArgs (parse (c :: a)) u f) (h : Refuses (parse (c :: a)) fits spelled) :
    Validated s l seq a ⟨i, c, fits, spelled⟩ := by
  have refused : ∀ {st}, parse (c :: a) = .error st → Answered i l seq (c :: a) st [] s s := fun {st} e =>
    answered_of_effect s l run hi hr (List.cons_ne_nil _ _) (cons_fits c ha) fun L Q _ _ => by
      obtain ⟨f, hf⟩ := hrun (withLinks L Q s)
      rw [hf, e]
      rfl
  exact ⟨fun hn => refused (h.1 hn), fun hn hx => refused (h.2 hn hx)⟩

theorem linkForms_validated : ∀ x ∈ linkForms l seq a, Validated s l seq a x := by
  simp only [linkForms, List.forall_mem_cons]
  exact ⟨validated hr ha (run := runPing) rfl (fun _ => ⟨_, rfl⟩) parsePing_refuses,
    validated hr ha (run := runIdentify) rfl (fun _ => ⟨_, rfl⟩) parseNone_refuses,
    validated hr ha (run := runSetLink) rfl (fun _ => ⟨_, rfl⟩) parseSetLink_refuses,
    validated hr ha (run := runQueryLink) rfl (fun _ => ⟨_, rfl⟩) parseLink_refuses,
    validated hr ha (run := runAckReports) rfl (fun _ => ⟨_, rfl⟩) parseSeq_refuses,
    validated hr ha (run := runSetRoute) rfl (fun _ => ⟨_, rfl⟩) parseLink_refuses,
    validated hr ha (run := runReset) rfl (fun _ => ⟨_, rfl⟩) parseNone_refuses,
    validated hr ha (run := runClaim) rfl (fun _ => ⟨_, rfl⟩) parseClaim_refuses,
    validated hr ha (run := runRelease) rfl (fun _ => ⟨_, rfl⟩) parseResource_refuses,
    validated hr ha (run := runQueryClaims) rfl (fun _ => ⟨_, rfl⟩) parseNone_refuses, List.forall_mem_nil _⟩

theorem trackForms_validated : ∀ x ∈ trackForms l seq a, Validated s l seq a x := by
  simp only [trackForms, List.forall_mem_cons]
  exact ⟨validated hr ha (run := runSetTrack) rfl (fun _ => ⟨_, rfl⟩) parseSetTrack_refuses,
    validated hr ha (run := runEnableTrack) rfl (fun _ => ⟨_, rfl⟩) parseTrack_refuses,
    validated hr ha (run := runDisableTrack) rfl (fun _ => ⟨_, rfl⟩) parseTrack_refuses,
    validated hr ha (run := runPreset) rfl (fun _ => ⟨_, rfl⟩) parseTrackValue_refuses,
    validated hr ha (run := runHome) rfl (fun _ => ⟨_, rfl⟩) parseHome_refuses,
    validated hr ha (run := runRebase) rfl (fun _ => ⟨_, rfl⟩) parseTrackValue_refuses,
    validated hr ha (run := runQueryTrack) rfl (fun _ => ⟨_, rfl⟩) parseTrack_refuses,
    validated hr ha (run := runClearTrackFault) rfl (fun _ => ⟨_, rfl⟩) parseTrack_refuses,
    validated hr ha (run := runSetSim) rfl (fun _ => ⟨_, rfl⟩) parseSetSim_refuses,
    validated hr ha (run := runClearStats) rfl (fun _ => ⟨_, rfl⟩) parseTrack_refuses, List.forall_mem_nil _⟩

theorem cueForms_validated : ∀ x ∈ cueForms l seq a, Validated s l seq a x := by
  simp only [cueForms, List.forall_mem_cons]
  exact ⟨validated hr ha (run := runAddCue) rfl (fun _ => ⟨_, rfl⟩) parseAddCue_refuses,
    validated hr ha (run := runCancelCue) rfl (fun _ => ⟨_, rfl⟩) parseCancelCue_refuses,
    validated hr ha (run := runFlush) rfl (fun _ => ⟨_, rfl⟩) parseFlush_refuses,
    validated hr ha (run := runQueryCue) rfl (fun _ => ⟨_, rfl⟩) parseQueryCue_refuses,
    validated hr ha (run := runQuerySchedule) rfl (fun _ => ⟨_, rfl⟩) parseQuerySchedule_refuses,
    validated hr ha (run := runQueryPool) rfl (fun _ => ⟨_, rfl⟩) parseNone_refuses,
    validated hr ha (run := runSetMark) rfl (fun _ => ⟨_, rfl⟩) parseSetMark_refuses,
    validated hr ha (run := runArmMarks) rfl (fun _ => ⟨_, rfl⟩) parseTrack_refuses,
    validated hr ha (run := runDisarmMarks) rfl (fun _ => ⟨_, rfl⟩) parseTrack_refuses,
    validated hr ha (run := runSetTemplate) rfl (fun _ => ⟨_, rfl⟩) parseSetTemplate_refuses,
    validated hr ha (run := runQueryMarks) rfl (fun _ => ⟨_, rfl⟩) parseTrack_refuses, List.forall_mem_nil _⟩

theorem lineForms_validated : ∀ x ∈ lineForms l seq a, Validated s l seq a x := by
  simp only [lineForms, List.forall_mem_cons]
  exact ⟨validated hr ha (run := runSetLine) rfl (fun _ => ⟨_, rfl⟩) parseSetLine_refuses,
    validated hr ha (run := runSetProfile) rfl (fun _ => ⟨_, rfl⟩) parseSetProfile_refuses,
    validated hr ha (run := runForceLine) rfl (fun _ => ⟨_, rfl⟩) parseForceLine_refuses,
    validated hr ha (run := runQueryLine) rfl (fun _ => ⟨_, rfl⟩) parseLine_refuses,
    validated hr ha (run := runClearLineFault) rfl (fun _ => ⟨_, rfl⟩) parseClearLineFault_refuses,
    validated hr ha (run := runSetSupervision) rfl (fun _ => ⟨_, rfl⟩) parseSetSupervision_refuses,
    validated hr ha (run := runStartSweep) rfl (fun _ => ⟨_, rfl⟩) parseNone_refuses,
    validated hr ha (run := runQuerySweep) rfl (fun _ => ⟨_, rfl⟩) parseNone_refuses, List.forall_mem_nil _⟩

end

/-! ### The ownership check (R161) -/

section
variable {s : State} {l : LinkId} {seq : Byte}

theorem onTrack_held {k : TrackId} (h : trackOwner s k = some (otherLink l)) (run : Answer) :
    onTrack l k s run = refuse .heldByOther s := by
  rw [onTrack, heldByOther_eq, if_pos (decide_eq_true h)]

theorem onLine_held {n : LineId} (h : lineOwner s n = some (otherLink l)) (run : Answer) :
    onLine l n s run = refuse .heldByOther s := by
  rw [onLine, heldByOther_eq, if_pos (decide_eq_true h)]

/-- A line of the other link is refused, whether the track is refused before it or not (R161). -/
theorem onTrack_onLine_held {k : TrackId} {n : LineId} (h : lineOwner s n = some (otherLink l)) (run : Answer) :
    onTrack l k s (onLine l n s run) = refuse .heldByOther s := by
  rw [onLine_held h]
  unfold onTrack
  split <;> rfl

variable (hr : Ready l seq s)
include hr

/-- A command that spells its operands and is refused by the ownership check (R161, R186). -/
theorem held_answered {α : Type} {run : LinkId → List Byte → State → Answer} {parse : List Byte → Except Status α} {i : Instr}
    {c : Byte} {a : List Byte} {x : α} {f : State → α → Answer} (hi : exec i s = .next (hostCommand run l seq (c :: a) s))
    (hrun : ∀ u, run l (c :: a) u = withArgs (parse (c :: a)) u (f u)) (ha : a.length ≤ 199) (hp : parse (c :: a) = .ok x)
    (h : ∀ L Q, f (withLinks L Q s) x = refuse .heldByOther (withLinks L Q s)) :
    Answered i l seq (c :: a) .heldByOther [] s s :=
  answered_of_effect s l run hi hr (List.cons_ne_nil _ _) (cons_fits c ha) fun L Q _ _ => by
    rw [hrun, hp, withArgs, h]
    rfl

end

theorem setTemplateArgs_length (k : TrackId) (e : EntryId) (t : Template) : (setTemplateArgs k e t).length ≤ 199 := by
  obtain ⟨enabled, offset, n, profile, width, tolerance, notify⟩ := t
  cases profile <;> cases width <;> cases tolerance <;> simp [setTemplateArgs]

theorem addCueArgs_fits (a : AddCueArgs) : (addCueArgs a).length ≤ 199 :=
  (length_addCueArgs_le a).trans (by decide)

/-- Settles O55: every command judges its length, then its operands, then whose resource it acts on. -/
theorem commandsAreValidatedInOrder : Obligations.CommandsAreValidatedInOrder := by
  unfold Obligations.CommandsAreValidatedInOrder
  intro s l seq hr
  refine ⟨fun a ha => ?_, ?_⟩
  · show ∀ x ∈ commandForms l seq a, Validated s l seq a x
    simp only [commandForms, List.forall_mem_append]
    exact ⟨⟨⟨linkForms_validated hr ha, trackForms_validated hr ha⟩, cueForms_validated hr ha⟩, lineForms_validated hr ha⟩
  · intro held
    refine ⟨fun k hk => ?_, fun n hn => ?_⟩
    · have owner : ∀ L Q (r : Answer), onTrack l k (withLinks L Q s) r = refuse .heldByOther (withLinks L Q s) := fun L Q r =>
        onTrack_held (s := withLinks L Q s) hk r
      intro a
      refine ⟨?_, ?_, ?_, ?_, ?_, ?_, ?_, fun x hx => ⟨?_, ?_, ?_⟩, fun v hv => ?_, fun v h1 h2 => ?_, fun id => ?_, fun n => ?_,
        fun c hc => ?_, fun c hc => ?_, fun e t ht => ?_, fun c hc hk' => ?_⟩
      · exact held_answered hr (run := runEnableTrack) rfl (fun _ => rfl) (by simp [a]) (parseTrack_index 0x21 k)
          fun L Q => owner L Q _
      · exact held_answered hr (run := runDisableTrack) rfl (fun _ => rfl) (by simp [a]) (parseTrack_index 0x22 k)
          fun L Q => owner L Q _
      · exact held_answered hr (run := runClearTrackFault) rfl (fun _ => rfl) (by simp [a]) (parseTrack_index 0x27 k)
          fun L Q => owner L Q _
      · exact held_answered hr (run := runClearStats) rfl (fun _ => rfl) (by simp [a]) (parseTrack_index 0x29 k)
          fun L Q => owner L Q _
      · exact held_answered hr (run := runFlush) rfl (fun _ => rfl) (by simp [a]) (parseFlush_iff (n := none).2 rfl)
          fun L Q => owner L Q _
      · exact held_answered hr (run := runArmMarks) rfl (fun _ => rfl) (by simp [a]) (parseTrack_index 0x41 k)
          fun L Q => owner L Q _
      · exact held_answered hr (run := runDisarmMarks) rfl (fun _ => rfl) (by simp [a]) (parseTrack_index 0x42 k)
          fun L Q => owner L Q _
      · exact held_answered hr (run := runPreset) rfl (fun _ => rfl) (by simp) (parseTrackValue_bytes 0x23 k hx)
          fun L Q => owner L Q _
      · exact held_answered hr (run := runRebase) rfl (fun _ => rfl) (by simp) (parseTrackValue_bytes 0x25 k hx)
          fun L Q => owner L Q _
      · exact held_answered hr (run := runHome) rfl (fun _ => rfl) (by simp) (parseHome_arm 0x24 k hx) fun L Q => owner L Q _
      · exact held_answered hr (run := runHome) rfl (fun _ => rfl) (by simp [hv]) (parseHome_disarm 0x24 k hv)
          fun L Q => owner L Q _
      · exact held_answered hr (run := runSetSim) rfl (fun _ => rfl) (by simp) (parseSetSim_iff.2 ⟨⟨h1, h2⟩, rfl⟩)
          fun L Q => owner L Q _
      · exact held_answered hr (run := runCancelCue) rfl (fun _ => rfl) (by simp) (parseCancelCue_iff.2 rfl) fun L Q => owner L Q _
      · exact held_answered hr (run := runFlush) rfl (fun _ => rfl) (by simp) (parseFlush_iff (n := some n).2 rfl)
          fun L Q => owner L Q _
      · exact held_answered hr (run := runSetTrack) rfl (fun _ => rfl) (by simp [setTrackArgs]) (parseSetTrack_iff.2 ⟨hc, rfl⟩)
          fun L Q => owner L Q _
      · exact held_answered hr (run := runSetMark) rfl (fun _ => rfl) (by simp [setMarkArgs]) (parseSetMark_iff.2 ⟨hc, rfl⟩)
          fun L Q => owner L Q _
      · exact held_answered hr (run := runSetTemplate) rfl (fun _ => rfl) (setTemplateArgs_length k e t) (parseSetTemplate_iff.2 ⟨ht, rfl⟩)
          fun L Q => owner L Q _
      · subst hk'
        exact held_answered hr (run := runAddCue) rfl (fun _ => rfl) (addCueArgs_fits c) (parseAddCue_iff.2 ⟨hc, rfl⟩)
          fun L Q => owner L Q _
    · have owner : ∀ L Q (r : Answer), onLine l n (withLinks L Q s) r = refuse .heldByOther (withLinks L Q s) := fun L Q r =>
        onLine_held (s := withLinks L Q s) hn r
      refine ⟨fun w h1 h2 => ?_,
          fun ks hks => ?_, fun c hc => ?_, fun k e t ht hn' => ?_, fun ms b masks hms hb => ?_, fun c hc hn' => ?_⟩
      · exact held_answered hr (run := runForceLine) rfl (fun _ => rfl) (by simp) (parseForceLine_iff.2 ⟨⟨h1, h2⟩, rfl⟩)
          fun L Q => owner L Q _
      · exact held_answered hr (run := runClearLineFault) rfl (fun _ => rfl) (by simp) (parseClearLineFault_iff.2 ⟨hks, rfl⟩)
          fun L Q => owner L Q _
      · exact held_answered hr (run := runSetLine) rfl (fun _ => rfl) (by simp [setLineArgs]) (parseSetLine_iff.2 ⟨hc, rfl⟩)
          fun L Q => owner L Q _
      · subst hn'
        exact held_answered hr (run := runSetTemplate) rfl (fun _ => rfl) (setTemplateArgs_length k e t)
          (parseSetTemplate_iff.2 ⟨ht, rfl⟩) fun L Q => onTrack_onLine_held (s := withLinks L Q s) hn _
      · exact held_answered hr (run := runSetSupervision) rfl (fun _ => rfl) (by simp) (parseSetSupervision_entry.2 ⟨⟨hms, hb⟩, rfl⟩)
          fun L Q => owner L Q _
      · subst hn'
        exact held_answered hr (run := runAddCue) rfl (fun _ => rfl) (addCueArgs_fits c) (parseAddCue_iff.2 ⟨hc, rfl⟩)
          fun L Q => onTrack_onLine_held (s := withLinks L Q s) hn _

end Sys2Proof.Machine
end

section
/-! SUPPORT. The statement about the loss of a link: its claims, its reply, and the command that outlives it (08, 09, 10). -/

namespace Sys2Proof.Machine

-- One proof at a time: proofs elaborated side by side would hold a thread each, and its stack.
set_option Elab.async false

/-! ### The release of the claims (R165, R166) -/

section
variable (l : LinkId)

/-- The entries among these that the lost link owns under FLUSH (R166). -/
def flushedOf (rs : List (Fin 20)) (s : State) : List (Fin 20) :=
  rs.filter fun r => s.claims[r].owner = some l ∧ s.claims[r].policy = .flush

/-- `s` after these entries of the lost link are free, and the notices of those under FLUSH are handed over (R165, R166). -/
def released (rs : List (Fin 20)) (s : State) : State :=
  let once := fun r => if r ∈ flushedOf l rs s then 1 else 0
  { s with
    claims := Vector.ofFn fun r => if r ∈ rs ∧ s.claims[r].owner = some l then ⟨none, .keep⟩ else s.claims[r]
    transit := { s.transit with
      csuLoss := s.transit.csuLoss ++ (flushedOf l rs s).map lossNotice
      markLoss := Vector.ofFn fun k => s.transit.markLoss[k] + once (trackResource k)
      lineLoss := Vector.ofFn fun n => s.transit.lineLoss[n] + once (lineResource n) } }

theorem flushedOf_append (rs : List (Fin 20)) (a : Fin 20) (s : State) : flushedOf l (rs ++ [a]) s =
    flushedOf l rs s ++ if s.claims[a].owner = some l ∧ s.claims[a].policy = .flush then [a] else [] := by
  rw [flushedOf, List.filter_append, List.filter_singleton]
  by_cases h : s.claims[a].owner = some l ∧ s.claims[a].policy = .flush
  · rw [if_pos h, decide_eq_true h]
    rfl
  · rw [if_neg h, decide_eq_false h]
    rfl

theorem mem_flushedOf {rs : List (Fin 20)} {a : Fin 20} {s : State} (h : a ∉ rs) : a ∉ flushedOf l rs s :=
  fun hm => h (List.mem_filter.1 hm).1

/-- A resource is a track's or a line's (Table 9-1). -/
theorem resource_cases (r : Fin 20) : (∃ k, r = trackResource k) ∨ ∃ n, r = lineResource n := by
  by_cases h : r.val < 4
  · exact .inl ⟨⟨r.val, h⟩, rfl⟩
  · exact .inr ⟨⟨r.val - 4, by omega⟩, Fin.ext (by simp only [lineResource]; omega)⟩

theorem lossNotice_trackResource (k : TrackId) : lossNotice (trackResource k) = .track k := dif_pos k.isLt

theorem lossNotice_lineResource (n : LineId) : lossNotice (lineResource n) = .line n := by
  have line : ¬(lineResource n).val < 4 := by simp only [lineResource]; omega
  rw [lossNotice, dif_neg line]
  exact congrArg LossNotice.line (Fin.ext (Nat.add_sub_cancel_left 4 n.val))

theorem trackResource_inj {k k' : TrackId} : trackResource k = trackResource k' ↔ k = k' := by
  simp only [trackResource, Fin.ext_iff]

theorem lineResource_inj {n n' : LineId} : lineResource n = lineResource n' ↔ n = n' := by
  simp only [lineResource, Fin.ext_iff, Nat.add_left_cancel_iff]

theorem trackResource_ne (k : TrackId) (n : LineId) : trackResource k ≠ lineResource n := by
  simp only [trackResource, lineResource, ne_eq, Fin.ext_iff]
  omega

/-- A FLUSH policy handed over with what is on its way (R166). -/
def handed (m : LossNotice) (t : Transit) : Transit :=
  match m with
  | .track k => { t with csuLoss := t.csuLoss ++ [m], markLoss := t.markLoss.set k (t.markLoss[k] + 1) }
  | .line n => { t with csuLoss := t.csuLoss ++ [m], lineLoss := t.lineLoss.set n (t.lineLoss[n] + 1) }

theorem handLoss_transit (m : LossNotice) (s : State) : (handLoss m s).transit = handed m s.transit := by
  cases m <;> rfl

theorem releaseLost_frame (s : State) (r : Fin 20) : releaseLost l s r =
    { s with claims := (releaseLost l s r).claims, transit := (releaseLost l s r).transit } := by
  unfold releaseLost
  repeat' split
  · rfl
  · cases lossNotice r <;> rfl
  · rfl

theorem releaseLost_transit (s : State) (r : Fin 20) : (releaseLost l s r).transit =
    if s.claims[r].owner = some l ∧ s.claims[r].policy = .flush then handed (lossNotice r) s.transit else s.transit := by
  unfold releaseLost
  by_cases own : s.claims[r].owner = some l
  · rw [if_pos own]
    cases policy : s.claims[r].policy with
    | keep => rw [if_neg (fun h => by cases h.2)]; rfl
    | flush => rw [if_pos ⟨own, rfl⟩]; exact handLoss_transit ..
  · rw [if_neg own, if_neg fun h => own h.1]

/-- The counts of the notices handed over, with one more for the entry `x` (R166). -/
theorem counts_set {n : Nat} {res : Fin n → Fin 20} (inj : ∀ i j, res i = res j ↔ i = j) {rs : List (Fin 20)} (x : Fin n)
    (h : res x ∉ rs) (v : Vector Nat n) :
    let counted := fun rs : List (Fin 20) => Vector.ofFn fun i => v[i] + if res i ∈ rs then 1 else 0
    (counted rs).set x ((counted rs)[x] + 1) = counted (rs ++ [res x]) := by
  intro counted
  ext i hi
  by_cases e : x.val = i
  · subst e
    simp [counted, h]
  · have other : ¬(⟨i, hi⟩ : Fin n) = x := fun h => e (congrArg Fin.val h).symm
    simp [counted, e, inj, other]

theorem counts_other {n : Nat} {res : Fin n → Fin 20} {a : Fin 20} (ne : ∀ i, res i ≠ a) (rs : List (Fin 20)) (v : Vector Nat n) :
    (Vector.ofFn fun i => v[i] + if res i ∈ rs ++ [a] then 1 else 0) = Vector.ofFn fun i => v[i] + if res i ∈ rs then 1 else 0 := by
  simp [ne]

/-- The notices of an entry that is released last (R166). -/
theorem released_transit {rs : List (Fin 20)} {a : Fin 20} (h : a ∉ rs) (s : State) : (released l (rs ++ [a]) s).transit =
    if s.claims[a].owner = some l ∧ s.claims[a].policy = .flush then handed (lossNotice a) (released l rs s).transit
    else (released l rs s).transit := by
  have fresh : a ∉ flushedOf l rs s := mem_flushedOf l h
  by_cases flush : s.claims[a].owner = some l ∧ s.claims[a].policy = .flush
  · have appended : flushedOf l (rs ++ [a]) s = flushedOf l rs s ++ [a] := by rw [flushedOf_append, if_pos flush]
    rw [if_pos flush]
    unfold released
    rw [appended]
    generalize flushedOf l rs s = fs at fresh
    rcases resource_cases a with ⟨k, rfl⟩ | ⟨n, rfl⟩
    · have marks := counts_set (fun _ _ => trackResource_inj) k fresh s.transit.markLoss
      have lines := counts_other (res := lineResource) (fun n => (trackResource_ne k n).symm) fs s.transit.lineLoss
      dsimp only at marks
      simp only [handed, lossNotice_trackResource, List.map_append, List.map_cons, List.map_nil, List.append_assoc, lines, ← marks]
    · have lines := counts_set (fun _ _ => lineResource_inj) n fresh s.transit.lineLoss
      have marks := counts_other (res := trackResource) (fun k => trackResource_ne k n) fs s.transit.markLoss
      dsimp only at lines
      simp only [handed, lossNotice_lineResource, List.map_append, List.map_cons, List.map_nil, List.append_assoc, marks, ← lines]
  · have same : flushedOf l (rs ++ [a]) s = flushedOf l rs s := by rw [flushedOf_append, if_neg flush, List.append_nil]
    rw [if_neg flush]
    unfold released
    rw [same]

theorem released_frame (rs : List (Fin 20)) (s : State) : released l rs s =
    { s with claims := (released l rs s).claims, transit := (released l rs s).transit } := rfl

theorem released_links (rs : List (Fin 20)) (s : State) : (released l rs s).links = s.links := by
  simp only [released]

/-- Two states that differ in claims and notices alone differ no more after both are replaced. -/
theorem put_frame {s x : State} (h : x = { s with claims := x.claims, transit := x.transit }) (c : Vector Claim 20) (t : Transit) :
    { x with claims := c, transit := t } = { s with claims := c, transit := t } := by
  rw [h]

theorem released_claims (rs : List (Fin 20)) (s : State) (j : Fin 20) : (released l rs s).claims[j] =
    if j ∈ rs ∧ s.claims[j].owner = some l then .free else s.claims[j] := by
  simp only [released, Fin.getElem_fin, Vector.getElem_ofFn, Claim.free, Fin.eta]

/-- An entry that is released last (R165, R166). -/
theorem releaseLost_released {rs : List (Fin 20)} {a : Fin 20} (h : a ∉ rs) (s : State) :
    releaseLost l (released l rs s) a = released l (rs ++ [a]) s := by
  have entry : (released l rs s).claims[a] = s.claims[a] := by
    rw [released_claims, if_neg fun hm => h hm.1]
  have claims : (releaseLost l (released l rs s) a).claims = (released l (rs ++ [a]) s).claims := by
    refine Vector.ext fun i hi => ?_
    have step := releaseLost_claims (released l rs s) l a ⟨i, hi⟩
    rw [released_claims] at step
    refine step.trans (Eq.trans ?_ (released_claims l (rs ++ [a]) s ⟨i, hi⟩).symm)
    generalize (⟨i, hi⟩ : Fin 20) = j
    by_cases own : s.claims[j].owner = some l
    · by_cases last : a = j
      · subst last
        simp [own, h, -Fin.getElem_fin]
      · simp [own, last, Ne.symm last, -Fin.getElem_fin]
    · simp [own, -Fin.getElem_fin]
  have transit : (releaseLost l (released l rs s) a).transit = (released l (rs ++ [a]) s).transit := by
    rw [releaseLost_transit, released_transit l h, entry]
  rw [releaseLost_frame, claims, transit]
  exact (put_frame (released_frame l rs s) _ _).trans (released_frame l (rs ++ [a]) s).symm

theorem foldl_released {rs : List (Fin 20)} (h : rs.Nodup) (s : State) : rs.foldl (releaseLost l) s = released l rs s := by
  induction rs using List.reverseRecOn with
  | nil =>
    have claims : (released l [] s).claims = s.claims := Vector.ext fun i hi =>
      (released_claims l [] s ⟨i, hi⟩).trans (if_neg fun hm => List.not_mem_nil hm.1)
    have transit : (released l [] s).transit = s.transit := by simp [released, flushedOf]
    rw [released_frame, claims, transit]
    rfl
  | append_singleton rs a ih =>
    obtain ⟨nodup, -, disjoint⟩ := List.nodup_append.1 h
    have fresh : a ∉ rs := fun hm => disjoint a hm a (List.mem_singleton.2 rfl) rfl
    rw [List.foldl_append, ih nodup, List.foldl_cons, List.foldl_nil, releaseLost_released l fresh]

end

section
variable (s : State) (l : LinkId)

/-! ### Changes outside the links and queues -/

/-- A change that does not see the links and queues, beside the choice of a frame. -/
theorem settled_map {t : State} (f : State → State) (hf : ∀ L Q u, f (withLinks L Q u) = withLinks L Q (f u))
    (h : Settled s t) : Settled (f s) (f t) := by
  have left : f s = withLinks s.links s.queues (f s) := hf s.links s.queues s
  have right : f t = withLinks t.links t.queues (f s) := (congrArg f (eq_withLinks h.device)).trans (hf ..)
  rw [right]
  generalize f s = x at left
  rw [left]
  exact ⟨h.links, h.queues, rfl⟩

theorem releaseClaims_eq : releaseClaims l s =
    raiseUnlessLost (otherLink l) (.linkLost l) (released l (List.finRange 20) s) := by
  have order : allResources = List.finRange 20 := by decide
  rw [releaseClaims, order, foldl_released l (List.nodup_finRange 20)]

theorem releaseClaims_settled {t : State} (h : Settled s t) : Settled (releaseClaims l s) (releaseClaims l t) := by
  have freed : Settled (released l (List.finRange 20) s) (released l (List.finRange 20) t) :=
    settled_map s (released l (List.finRange 20)) (fun _ _ _ => rfl) h
  rw [releaseClaims_eq, releaseClaims_eq, raiseUnlessLost, raiseUnlessLost, freed.isLost]
  split
  · exact freed
  · exact settled_map _ (raiseTo (otherLink l) (.linkLost l)) (fun _ _ _ => rfl) freed

theorem linkOn_releaseClaims (m : LinkId) : linkOn (releaseClaims l s) m = linkOn s m := by
  simp only [linkOn, releaseClaims_eq, raiseUnlessLost_links, released_links]

/-- The release of all claims, entry by entry (R165, R166). -/
theorem released_all : released l (List.finRange 20) s = { s with
    claims := Vector.ofFn fun r => if s.claims[r].owner = some l then ⟨none, .keep⟩ else s.claims[r]
    transit := (released l (List.finRange 20) s).transit } := by
  have claims : (released l (List.finRange 20) s).claims =
      Vector.ofFn fun r => if s.claims[r].owner = some l then ⟨none, .keep⟩ else s.claims[r] := by
    simp only [released, List.mem_finRange, true_and]
  rw [released_frame, claims]

/-! ### The end of the command of a lost link (R146, R150) -/

/-- A link without a pending reply gets none by the choice of a frame (R148). -/
theorem kick_unpending (h : (linkOn s l).replyPending = false) : (linkOn (kick s) l).replyPending = false := by
  cases l with
  | link1 => rwa [kick_link1]
  | link0 =>
    unfold kick pump chooseReport
    dsimp only
    repeat' split
    · exact h
    · rw [linkOn_setLink_same]
    · exact h
    · rwa [linkOn_setQueue, linkOn_setLink_same]
    · exact h

theorem releaseBaud_settled {t : State} (h : Settled s t) : Settled (releaseBaud l s) (releaseBaud l t) := by
  rw [releaseBaud_eq, releaseBaud_eq]
  exact settled_map s (fun u => { u with
    baud := if u.baud.awaiting = some l then { u.baud with awaiting := none } else u.baud }) (fun _ _ _ => rfl) h

/-- The command of a lost link ends, with none buffered behind it (R146, R150). -/
theorem endCurrent_lost (q : Queue) (w : Link) (hw : w.resetWait = false) (hi : w.inbound = []) :
    endCurrent l (setQueue l q (setLink l w s)) = setQueue l q (setLink l { w with current := none } (releaseBaud l s)) := by
  have last : promoteLink { w with current := none } = { w with current := none } := by simp only [promoteLink, hi]
  have baud : releaseBaud l (setQueue l q (setLink l w s)) = setQueue l q (setLink l w (releaseBaud l s)) := by
    rw [releaseBaud_eq, releaseBaud_eq]
    rfl
  rw [endCurrent_calm _ l (by rw [linkOn_setQueue, linkOn_setLink_same]; exact hw), linkOn_setQueue, linkOn_setLink_same, last, baud]
  exact congrArg (setQueue l q) (setLink_setLink (releaseBaud l s) l _ w)

/-! ### What the loss leaves (R165) -/

/-- `s` after link `l` is lost with this link interface and these baud rates, apart from the choice of a frame (R165). -/
def lossOf (v : Link) (b : Baud) : State :=
  releaseClaims l (setQueue l (queueOn s l).purge
    (setLink l { v with state := .lost, supervision := none, lastSeq := none, inbound := [], holdReports := false }
      { s with baud := b }))

variable {s l} in
/-- What a lost link still sends, and what it leaves, when its interface is `w` at the loss (R150, R165). -/
theorem linkLoss_leaves {w v : Link} {b : Baud} {x : State}
    (hup : (linkOn s l).state = .up) (ht : (linkOn s l).supervision ≠ none)
    (hx : loseLink l (kick s) = releaseClaims l (setQueue l (queueOn (kick s) l).purge (setLink l w x)))
    (settled : Settled { s with baud := b } x)
    (hw : w.apart = Link.apart { v with state := .lost, supervision := none, lastSeq := none, inbound := [], holdReports := false })
    (hp : w.replyPending = false) (ho : ∀ o, (linkOn s l).outbound = some o → w.outbound = some o) :
    Settled (lossOf s l v b) (linkLoss l s) ∧ (linkOn (linkLoss l s) l).replyPending = false ∧
      ∀ o, (linkOn s l).outbound = some o → (linkOn (linkLoss l s) l).outbound = some o := by
  obtain ⟨state, -, -, -, -, -, -, -, -, -, -, -, supervision, -⟩ := apart_fields (kick_link s l)
  have fires : (linkOn (kick s) l).state = .up ∧ (linkOn (kick s) l).supervision.isSome = true := by
    rw [state, supervision]
    exact ⟨hup, Option.isSome_iff_ne_none.2 ht⟩
  have lost : linkLoss l s = kick (releaseClaims l (setQueue l (queueOn (kick s) l).purge (setLink l w x))) := by
    simp only [linkLoss, if_pos fires, hx]
  have purged : (queueOn (kick s) l).purge.apart = (queueOn s l).purge.apart := by
    obtain ⟨-, seq, -⟩ := queue_apart_fields (kick_queue s l)
    simp only [Queue.purge, Queue.apart, seq]
  have link : linkOn (releaseClaims l (setQueue l (queueOn (kick s) l).purge (setLink l w x))) l = w := by
    rw [linkOn_releaseClaims, linkOn_setQueue, linkOn_setLink_same]
  rw [lost]
  refine ⟨(releaseClaims_settled _ l (settled_setQueue l (settled_setLink l settled hw) purged)).trans (kick_settled _),
    kick_unpending _ l (by rw [link]; exact hp), fun o h => ?_⟩
  rw [(kick_held _ l (.inr (by rw [link, ho o h]; exact Option.some_ne_none o))).1, link]
  exact ho o h

/-- The loss of a link whose reply is not pending (R165). -/
theorem loseLink_kept {k : State} (hd : settleDuplicate l k = k) (hp : (linkOn k l).replyPending = false) :
    loseLink l k = releaseClaims l (setQueue l (queueOn k l).purge (setLink l (lostLink (linkOn k l)) k)) := by
  simp only [loseLink, hd, hp, Bool.false_and, Bool.false_eq_true, if_false]

/-- The loss of a link drops a reply that has not begun, and its command ends (R150, R165). -/
theorem loseLink_dropped {k : State} (hp : (linkOn (settleDuplicate l k) l).replyPending = true)
    (hw : (linkOn (settleDuplicate l k) l).resetWait = false) :
    loseLink l k = releaseClaims l (setQueue l (queueOn (settleDuplicate l k) l).purge
      (setLink l { lostLink (linkOn (settleDuplicate l k) l) with current := none } (releaseBaud l (settleDuplicate l k)))) := by
  have calm : (lostLink (linkOn (settleDuplicate l k) l)).resetWait = false := hw
  have ended := endCurrent_lost (settleDuplicate l k) l (queueOn (settleDuplicate l k) l).purge
    (lostLink (linkOn (settleDuplicate l k) l)) calm rfl
  simp only [loseLink, hp, linkOn_setQueue, linkOn_setLink_same, calm, Bool.and_false, Bool.false_eq_true, if_false, if_true, ended]

/-- A current command that is executed, is an orphan or is no duplicate is left to the loss (R147, R165). -/
theorem settleDuplicate_stays (h : ∀ c, (linkOn s l).current = some c →
    c.executed = true ∨ c.orphan = true ∨ (linkOn s l).lastSeq ≠ some c.frame.seq) : settleDuplicate l (kick s) = kick s := by
  obtain ⟨-, -, -, current, last, -⟩ := apart_fields (kick_link s l)
  unfold settleDuplicate
  rw [current]
  cases hc : (linkOn s l).current with
  | none => rfl
  | some c =>
    have other : ¬(!c.executed && !c.orphan && isDuplicate l c.frame.seq (kick s)) = true := by
      rw [isDuplicate, last]
      rcases h c hc with h | h | h <;> simp [h]
    exact if_neg other

/-- A current duplicate is taken before the loss (R147, R165). -/
theorem settleDuplicate_takes {c : Current} (hc : (linkOn s l).current = some c) (he : c.executed = false)
    (ho : c.orphan = false) (hs : (linkOn s l).lastSeq = some c.frame.seq) :
    settleDuplicate l (kick s) = takeDuplicate l (kick s) := by
  obtain ⟨-, -, -, current, last, -⟩ := apart_fields (kick_link s l)
  simp only [settleDuplicate, current, hc, isDuplicate, last, hs, he, ho, Bool.not_false, beq_self_eq_true, Bool.and_self, if_true]

section
variable {s l} {v : Link} (hup : (linkOn s l).state = .up) (ht : (linkOn s l).supervision ≠ none)
include hup ht

/-- The loss of a link without a pending reply (R165). -/
theorem linkLoss_kept (hd : settleDuplicate l (kick s) = kick s) (hp : (linkOn s l).replyPending = false)
    (hv : (lostLink (linkOn s l)).apart =
      Link.apart { v with state := .lost, supervision := none, lastSeq := none, inbound := [], holdReports := false }) :
    Settled (lossOf s l v s.baud) (linkLoss l s) ∧ (linkOn (linkLoss l s) l).replyPending = false ∧
      ∀ o, (linkOn s l).outbound = some o → (linkOn (linkLoss l s) l).outbound = some o := by
  have apart := congrArg (fun u : Link => (lostLink u).apart) (kick_link s l)
  refine linkLoss_leaves hup ht (loseLink_kept l hd (kick_unpending s l hp)) (kick_settled s) (Eq.trans apart hv) rfl fun o h => ?_
  exact (congrArg Link.outbound (kick_held s l (.inr (by rw [h]; exact Option.some_ne_none o))).1).trans h

/-- The loss of a link that drops the reply of `d`, its link interface behind a duplicate (R147, R150, R165). -/
theorem linkLoss_dropped {d : Link} (hd : settleDuplicate l (kick s) = setLink l d (kick s)) (hp : d.replyPending = true)
    (hw : d.resetWait = false) (ho : ∀ o, (linkOn s l).outbound = some o → d.outbound = some o)
    (hv : Link.apart { lostLink d with current := none } =
      Link.apart { v with state := .lost, supervision := none, lastSeq := none, inbound := [], holdReports := false }) :
    Settled (lossOf s l v (if s.baud.awaiting = some l then { s.baud with awaiting := none } else s.baud)) (linkLoss l s) ∧
      (linkOn (linkLoss l s) l).replyPending = false ∧
      ∀ o, (linkOn s l).outbound = some o → (linkOn (linkLoss l s) l).outbound = some o := by
  have link : linkOn (settleDuplicate l (kick s)) l = d := by rw [hd, linkOn_setLink_same]
  have dropped := loseLink_dropped l (k := kick s) (by rw [link]; exact hp) (by rw [link]; exact hw)
  rw [link, hd, releaseBaud_setLink, setLink_setLink, queueOn_setLink] at dropped
  refine linkLoss_leaves hup ht dropped ?_ hv rfl ho
  have settled := releaseBaud_settled s l (kick_settled s)
  rwa [releaseBaud_eq s] at settled

end

/-! ### A command that outlives its link (R150) -/

theorem promoteLink_apart (u : Link) : (promoteLink u).apart = (promoteLink u.apart).apart := by
  unfold promoteLink
  cases hc : u.current with
  | some c => simp [Link.apart, hc]
  | none => cases hi : u.inbound <;> simp [Link.apart, hc, hi]

/-- The end of a command beside the choice of a frame (R146). -/
theorem endCurrent_settled {t : State} (h : Settled s t) (hw : (linkOn s l).resetWait = false) :
    Settled (endCurrent l s) (endCurrent l t) := by
  obtain ⟨-, -, -, -, -, -, -, -, -, -, -, -, -, -, wait, -⟩ := apart_fields (h.links l)
  rw [endCurrent_calm s l hw, endCurrent_calm t l (wait.trans hw)]
  refine settled_setLink l (releaseBaud_settled s l h) ?_
  have none : Link.apart { linkOn t l with current := none } = Link.apart { linkOn s l with current := none } := by
    have same := congrArg (fun u : Link => Link.apart { u with current := none }) (h.links l)
    exact same
  rw [promoteLink_apart, none, ← promoteLink_apart]

/-- The row of an orphan executes it, drops its reply and ends it (R150). -/
theorem orphan_executes (run : LinkId → List Byte → State → Answer) {c : Current} (hc : (linkOn s l).current = some c)
    (ho : c.orphan = true) (he : c.executed = false) {v : State} (hv : Settled v (run l c.frame.payload (kick s)).state)
    (still : (linkOn v l).current = some c) (calm : (linkOn v l).resetWait = false) :
    Settled (endCurrent l v) (hostCommand run l c.frame.seq c.frame.payload s) := by
  have current : (linkOn (kick s) l).current = some c := (apart_fields (kick_link s l)).2.2.2.1.trans hc
  have waiting : isWaiting l c.frame.seq c.frame.payload (kick s) = true := by simp [isWaiting, current, he]
  have arrived : present l c.frame.seq c.frame.payload (kick s) = kick s := by rw [present, waiting]; rfl
  have orphan : isOrphan l (kick s) = true := by simp only [isOrphan, current, ho]
  have left : isOrphan l (run l c.frame.payload (kick s)).state = true := by
    simp only [isOrphan, (apart_fields (hv.links l)).2.2.2.1, still, ho]
  have executed : hostCommand run l c.frame.seq c.frame.payload s = kick (endCurrent l (run l c.frame.payload (kick s)).state) := by
    simp only [hostCommand, arrived, waiting, if_true, execute, orphan, Bool.not_true, Bool.and_false, Bool.false_eq_true, if_false,
      reply, left]
  rw [executed]
  exact (endCurrent_settled v l hv calm).trans (kick_settled _)

/-- A command that only answers changes nothing, whatever its operands (R186). -/
theorem withArgs_state {α : Type} (r : Except Status α) {run : α → Answer} (h : ∀ x, (run x).state = s) :
    (withArgs r s run).state = s := by
  cases r with
  | ok x => exact h x
  | error e => rfl

/-- An update of a link interface leaves the current command and the reset wait that it does not touch. -/
theorem update_keeps (m : LinkId) (f : Link → Link) (hf : ∀ u, (f u).current = u.current ∧ (f u).resetWait = u.resetWait) :
    (linkOn (setLink m (f (linkOn s m)) s) l).current = (linkOn s l).current ∧
      (linkOn (setLink m (f (linkOn s m)) s) l).resetWait = (linkOn s l).resetWait := by
  rcases eq_or_other m l with rfl | rfl
  · rw [linkOn_setLink_same]
    exact hf _
  · rw [linkOn_setLink_other]
    exact ⟨rfl, rfl⟩

end

/-- Settles O50: the two resets, the orphans, and the loss by what is current. -/
theorem linkLossReleasesEverything : Obligations.LinkLossReleasesEverything := by
  unfold Obligations.LinkLossReleasesEverything
  refine ⟨fun s l h => ⟨_, rfl, l, .inr (.inl ⟨h, rfl⟩)⟩, fun s l c hc ho he hw hp => ?_, fun s l => ?_⟩
  · intro seq p next ends leaves
    have ended : ∀ v, (linkOn v l).resetWait = false → endCurrent l v = ends v := fun v h => by
      have promoted : ∀ u : Link, promoteLink { u with current := none } = next u := fun u => by
        cases hi : u.inbound with
        | nil => simp only [promoteLink, next, hi]
        | cons f rest => simp only [promoteLink, next, hi]
      rw [endCurrent_calm v l h, promoted, releaseBaud_eq]
    have leave : ∀ (run : LinkId → List Byte → State → Answer) (i : Instr) (v : State), exec i s = .next (hostCommand run l seq p s) →
        Settled v (run l p (kick s)).state → (linkOn v l).current = some c → (linkOn v l).resetWait = false → leaves i v :=
      fun run i v hi hv hcur hcalm => ⟨_, hi, ended v hcalm ▸ orphan_executes s l run hc ho he hv hcur hcalm⟩
    have answers : ∀ (run : LinkId → List Byte → State → Answer) (i : Instr), exec i s = .next (hostCommand run l seq p s) →
        (run l p (kick s)).state = kick s → leaves i s :=
      fun run i hi hs => leave run i s hi (by rw [hs]; exact kick_settled s) hc hw
    have claims : (kick s).claims = s.claims := (device_fields (kick_device s)).2.2.2.2.2.2.2.2.2.2.1
    have up : (linkOn (kick s) l).state = (linkOn s l).state := (apart_fields (kick_link s l)).1
    refine ⟨fun data h => ?_, fun h => ?_, fun m h => ?_, fun code args hcode h => ?_, fun m h => ?_, fun a ht h1 h2 h => ?_,
      fun r q h => ⟨fun hn => ?_, fun hup hn => ?_⟩, fun r h => ?_, fun h => ⟨_, rfl, l, .inr (.inr ⟨_, h, rfl⟩)⟩⟩
    · exact answers runPing _ (by rw [h]; rfl) (withArgs_state _ _ fun _ => rfl)
    · exact answers runIdentify _ (by rw [h]; rfl) (withArgs_state _ _ fun _ => rfl)
    · exact answers runQueryLink _ (by rw [h]; rfl) (withArgs_state _ _ fun _ => rfl)
    · refine answers runUnknown _ ?_ rfl
      have unlisted : listedCodes.contains code = false := by simpa using hcode
      show Host.Outcome.next (if listedCodes.contains code then s else _) = _
      rw [unlisted, h]
      rfl
    · refine leave runSetRoute _ _ (by rw [h]; rfl) ?_ hc hw
      rw [h, runSetRoute, parseLink_code]
      exact settled_map s (fun u => { u with route := m }) (fun _ _ _ => rfl) (kick_settled s)
    · intro u timer
      obtain ⟨hcur, hcalm⟩ := update_keeps { s with baud := baudAfterSetLink l a s.baud } l a.target (newSettings s.now a)
        fun _ => ⟨rfl, rfl⟩
      rw [← baudAfterSetLink_eq]
      refine leave runSetLink _ _ (by rw [h]; rfl) ?_ (hcur.trans hc) (hcalm.trans hw)
      have run : runSetLink l p (kick s) = done (applySetLink l a (kick s)) := by
        rw [h, runSetLink, parseSetLink_iff.2 ⟨⟨ht, h1, h2⟩, rfl⟩]
        rfl
      have now : newSettings (kick s).now a = newSettings s.now a := by rw [kick_now]
      have baud : baudAfterSetLink l a (kick s).baud = baudAfterSetLink l a s.baud := by rw [kick_baud]
      rw [run]
      show Settled _ (setLink a.target (newSettings (kick s).now a (linkOn (kick s) a.target))
        { kick s with baud := baudAfterSetLink l a (kick s).baud })
      rw [now, baud]
      exact settled_update a.target (newSettings s.now a) (settled_baud s _ (kick_settled s)) fun _ => rfl
    · have run : (runClaim l p (kick s)).state = kick s := by
        simp only [h, runClaim, parseClaim_index, withArgs, heldByOther_eq, claims, up]
        by_cases own : s.claims[r].owner = some (otherLink l)
        · rw [if_pos (decide_eq_true own)]
        · rw [if_neg (by rwa [decide_eq_true_eq]), if_neg (hn.resolve_right own)]
          rfl
      exact answers runClaim _ (by rw [h]; rfl) run
    · refine leave runClaim _ _ (by rw [h]; rfl) ?_ hc hw
      have run : runClaim l p (kick s) = ⟨.ok, Claim.bytes ⟨some l, q⟩, setClaim r ⟨some l, q⟩ (kick s)⟩ := by
        simp only [h, runClaim, parseClaim_index, withArgs, heldByOther_eq, claims, up, decide_eq_false hn, Bool.false_eq_true,
          if_false, if_pos hup]
      rw [run]
      exact settled_map s (setClaim r ⟨some l, q⟩) (fun _ _ _ => rfl) (kick_settled s)
    · have run : runRelease l p (kick s) =
          if s.claims[r].owner = some l then done (setClaim r .free (kick s)) else refuse .notOwner (kick s) := by
        simp only [h, runRelease, parseResource_index, withArgs, claims]
      by_cases own : s.claims[r].owner = some l
      · rw [if_pos own]
        refine leave runRelease _ _ (by rw [h]; rfl) ?_ hc hw
        rw [run, if_pos own]
        exact settled_map s (setClaim r .free) (fun _ _ _ => rfl) (kick_settled s)
      · rw [if_neg own]
        exact answers runRelease _ (by rw [h]; rfl) (by rw [run, if_neg own]; rfl)
  · intro u q flushed
    refine ⟨fun h => ⟨_, rfl, ?_⟩, ?_⟩
    · obtain ⟨state, -, -, -, -, -, -, -, -, -, -, -, supervision, -⟩ := apart_fields (kick_link s l)
      have rests : ¬((linkOn (kick s) l).state = .up ∧ (linkOn (kick s) l).supervision.isSome = true) := by
        rw [state, supervision]
        rintro ⟨hs, ht⟩
        exact h.elim (fun h => h hs) fun h => Option.isSome_iff_ne_none.1 ht h
      have same : linkLoss l s = kick s := by simp only [linkLoss, if_neg rests]
      rw [same]
      exact kick_settled s
    · intro once lost loses done stuck hup ht
      have leaves : ∀ (v : Link) (b : Baud), Settled (lossOf s l v b) (linkLoss l s) ∧ (linkOn (linkLoss l s) l).replyPending = false ∧
          (∀ o, u.outbound = some o → (linkOn (linkLoss l s) l).outbound = some o) → loses v b := fun v b h => by
        have same : lossOf s l v b = lost v b := by
          rw [lossOf, releaseClaims_eq, released_all]
          simp only [setQueue, setLink]
          rfl
        rw [same] at h
        exact ⟨_, rfl, h⟩
      refine ⟨fun hc hp => leaves _ _ (linkLoss_kept hup ht (settleDuplicate_stays s l fun c h => ?_) hp ?_), fun c hc =>
        ⟨fun he hp hstuck hw => leaves _ _ (linkLoss_dropped (d := u) hup ht ?_ hp hw (fun _ h => h) ?_),
        fun he hp => leaves _ _ (linkLoss_kept hup ht (settleDuplicate_stays s l fun c' h => .inl ?_) hp ?_),
        fun he hp hs => leaves _ _ (linkLoss_kept hup ht (settleDuplicate_stays s l fun c' h => .inr (.inr ?_)) hp ?_),
        fun he ho hs hw => leaves _ _ (linkLoss_dropped hup ht
          (settleDuplicate_takes s l hc he ho hs) rfl ?_ (fun o h => ?_) ?_)⟩⟩
      · exact absurd (hc.symm.trans h) (Option.some_ne_none c).symm
      · simp only [u, lostLink, Link.apart, show (linkOn s l).current = none from hc, Option.map_none]
      · have same : linkOn (kick s) l = u := linkOn_kick_of_held s l hstuck
        rw [settleDuplicate_stays s l fun c' h => .inl ?_]
        · exact (setLink_linkOn (kick s) l).symm.trans (by rw [same])
        · obtain rfl := Option.some.inj (hc.symm.trans h)
          exact he
      · rfl
      · obtain rfl := Option.some.inj (hc.symm.trans h)
        exact he
      · simp only [lostLink, Link.apart, show (linkOn s l).current = some c from hc, Option.map_some, he, Bool.not_true]
        rfl
      · obtain rfl := Option.some.inj (hc.symm.trans h)
        exact hs
      · simp only [lostLink, Link.apart, show (linkOn s l).current = some c from hc, Option.map_some, he, Bool.not_false]
        rfl
      · exact (apart_fields (kick_link s l)).2.2.2.2.2.2.2.2.2.2.2.2.2.2.1.trans hw
      · exact (congrArg Link.outbound (kick_held s l (.inr (by rw [h]; exact Option.some_ne_none o))).1).trans h
      · have apart := congrArg (fun u : Link =>
          Link.apart { lostLink { u.answered with duplicates := countUp u.duplicates } with current := none }) (kick_link s l)
        exact apart

end Sys2Proof.Machine
end
